-- ==== Sys2Proof/Word.lean ====
section
/-!
DEFINITION. The byte and the word of the machine (00_scope.md R9): a byte is 8 bits, a word (an
address, the program counter) 16 bits. Bit 0 is the least significant bit.
-/

namespace Sys2Proof

/-- `u8` of rule R9: the contents of a register or of one memory address. -/
abbrev Byte := BitVec 8

/-- `u16` of rule R9: an address or the program counter. -/
abbrev Word := BitVec 16

end Sys2Proof
end

