-- ==== Sys2Proof/Config.lean ====
section
/-!
DEFINITION. What is fixed for one machine while it runs (00_scope.md R8, 10_state.md R42): the ten
named parameters as plain data, and the one free value. The default values of the parameters stand
in Machine/Table.lean.
-/

namespace Sys2Proof

/-- `ZP_PTR_WRAP` (R8, D4): where a zero-page pointer at `$FF` has its high byte. -/
inductive ZpPtrWrap where
  /-- high byte at `$0100` (the default) -/
  | linear
  /-- high byte at `$0000` -/
  | page0
  deriving DecidableEq, Repr

/-- `ROM_WRITE_POLICY` (R8, D13): a write to an address with a read-hook and no write-hook. -/
inductive RomWritePolicy where
  /-- nothing happens (the default) -/
  | ignore
  /-- `Fault.InvalidMemoryAccess` -/
  | fault
  deriving DecidableEq, Repr

/-- `NMI_ACK` (R8, D8): what servicing an NMI does to the NMI source set. -/
inductive NmiAck where
  /-- the set is emptied (the default) -/
  | clearOnService
  /-- the set is left alone -/
  | level
  deriving DecidableEq, Repr

/-- `POLL_POINT` (R8, D12): where in an iteration interrupts are polled. -/
inductive PollPoint where
  /-- first thing in an iteration (the default) -/
  | beforeStep
  /-- after the step's result is folded -/
  | afterStep
  deriving DecidableEq, Repr

/-! ## The instruction table (30_encoding.md R94) -/

/-- The 56 mnemonics of R95. -/
inductive Mnemonic where
  | tax | tay | txa | tya | tsx | txs | inx | iny | dex | dey | clc | sec | cli | sei
  | cld | sed | clv | nop | lda | ldx | ldy | adc | sbc | and | ora | eor | cmp | cpx
  | cpy | bit | sta | stx | sty | inc | dec | jmp | asl | lsr | rol | ror | bcc | bcs
  | beq | bne | bmi | bpl | bvc | bvs | pha | pla | php | plp | jsr | rts | brk | rti
  deriving DecidableEq, Repr

/-- The thirteen addressing modes of R91. -/
inductive Mode where
  | implied
  | accumulator
  | immediate
  | relative
  | zeroPage
  | zeroPageX
  | zeroPageY
  | absolute
  | absoluteX
  | absoluteY
  | indexedIndirectX
  | indirectIndexedY
  | indirect
  deriving DecidableEq, Repr

/-- The behavior a row names (R94). -/
inductive Behavior where
  /-- the behavior of a documented mnemonic (files 41 to 46) -/
  | documented (m : Mnemonic)
  /-- a further behavior of the platform: "this spec says nothing of their behavior" (R99) -/
  | platform (name : String)
  deriving DecidableEq, Repr

/-- One row of `INSTRUCTION_TABLE` (R94, R102): a registered opcode byte with its behavior, its
addressing mode, its size and its `CYCLES` columns. -/
structure TableRow where
  opcode : Byte
  behavior : Behavior
  mode : Mode
  /-- the encoded size in bytes, 1 + operand count (R90); the step goes by the mode (R120) -/
  size : Nat
  /-- the count when no penalty applies -/
  cycles : Nat
  /-- what is added when `crossed` is true -/
  pageCrossExtra : Nat
  /-- whether the branch penalties of R250 apply -/
  branchExtra : Bool
  deriving DecidableEq, Repr

/-- `RESET_STATE` (R8, D11): the values reset pins a register to; `none` is "not written". -/
structure ResetValues where
  a : Option Byte
  x : Option Byte
  y : Option Byte
  sp : Option Byte
  p : Option Byte
  deriving DecidableEq, Repr

/-- The parameters of one machine (R8). -/
structure Config where
  /-- `MEM_SIZE` -/
  memSize : Nat
  /-- `NUM_CONFIGS` -/
  numConfigs : Nat
  /-- `INSTRUCTION_TABLE`, with the per-opcode part of `CYCLES` -/
  table : List TableRow
  /-- `CYCLES`: the penalty of a taken branch (R250) -/
  branchTakenCycles : Nat
  /-- `CYCLES`: the further penalty when the target is on another page (R250) -/
  branchPageCycles : Nat
  zpPtrWrap : ZpPtrWrap
  romWritePolicy : RomWritePolicy
  nmiAck : NmiAck
  /-- `INT_CYCLES` -/
  intCycles : Nat
  pollPoint : PollPoint
  /-- `RESET_STATE` -/
  resetValues : ResetValues
  deriving DecidableEq, Repr

/-- FREE VALUE (93_implementation_defined.md U12, log 7): the byte a device read-hook returns when
the model's script of replies says nothing. No proof can know a value of it. -/
opaque Config.freeByte : Nat → Byte

end Sys2Proof
end

