-- ==== Sys2Proof/Syntax.lean ====
section
/-!
DEFINITION. The instructions: one constructor for each of the 151 rows of opcode_table.json
(30_encoding.md R95, R102), with the operand bytes as the constructor's argument (R93): `nn` the
operand byte of format F2, `w` the operand word `hh * 256 + ll` of format F3.
-/

namespace Sys2Proof

/-- An instruction with its operand. -/
inductive Instr where
  /-- `TAX`, opcode `$AA`, R170 -/
  | tax
  /-- `TAY`, opcode `$A8`, R171 -/
  | tay
  /-- `TXA`, opcode `$8A`, R172 -/
  | txa
  /-- `TYA`, opcode `$98`, R173 -/
  | tya
  /-- `TSX`, opcode `$BA`, R174 -/
  | tsx
  /-- `TXS`, opcode `$9A`, R175 -/
  | txs
  /-- `INX`, opcode `$E8`, R176 -/
  | inx
  /-- `INY`, opcode `$C8`, R177 -/
  | iny
  /-- `DEX`, opcode `$CA`, R178 -/
  | dex
  /-- `DEY`, opcode `$88`, R179 -/
  | dey
  /-- `CLC`, opcode `$18`, R180 -/
  | clc
  /-- `SEC`, opcode `$38`, R181 -/
  | sec
  /-- `CLI`, opcode `$58`, R182 -/
  | cli
  /-- `SEI`, opcode `$78`, R183 -/
  | sei
  /-- `CLD`, opcode `$D8`, R184 -/
  | cld
  /-- `SED`, opcode `$F8`, R185 -/
  | sed
  /-- `CLV`, opcode `$B8`, R186 -/
  | clv
  /-- `NOP`, opcode `$EA`, R188 -/
  | nop
  /-- `LDA #$nn`, opcode `$A9`, R200 -/
  | ldaImm (nn : Byte)
  /-- `LDA $nn`, opcode `$A5`, R200 -/
  | ldaZp (nn : Byte)
  /-- `LDA $nn,X`, opcode `$B5`, R200 -/
  | ldaZpX (nn : Byte)
  /-- `LDA $hhll`, opcode `$AD`, R200 -/
  | ldaAbs (w : Word)
  /-- `LDA $hhll,X`, opcode `$BD`, R200 -/
  | ldaAbsX (w : Word)
  /-- `LDA $hhll,Y`, opcode `$B9`, R200 -/
  | ldaAbsY (w : Word)
  /-- `LDA ($nn,X)`, opcode `$A1`, R200 -/
  | ldaIzX (nn : Byte)
  /-- `LDA ($nn),Y`, opcode `$B1`, R200 -/
  | ldaIzY (nn : Byte)
  /-- `LDX #$nn`, opcode `$A2`, R201 -/
  | ldxImm (nn : Byte)
  /-- `LDX $nn`, opcode `$A6`, R201 -/
  | ldxZp (nn : Byte)
  /-- `LDX $nn,Y`, opcode `$B6`, R201 -/
  | ldxZpY (nn : Byte)
  /-- `LDX $hhll`, opcode `$AE`, R201 -/
  | ldxAbs (w : Word)
  /-- `LDX $hhll,Y`, opcode `$BE`, R201 -/
  | ldxAbsY (w : Word)
  /-- `LDY #$nn`, opcode `$A0`, R202 -/
  | ldyImm (nn : Byte)
  /-- `LDY $nn`, opcode `$A4`, R202 -/
  | ldyZp (nn : Byte)
  /-- `LDY $nn,X`, opcode `$B4`, R202 -/
  | ldyZpX (nn : Byte)
  /-- `LDY $hhll`, opcode `$AC`, R202 -/
  | ldyAbs (w : Word)
  /-- `LDY $hhll,X`, opcode `$BC`, R202 -/
  | ldyAbsX (w : Word)
  /-- `ADC #$nn`, opcode `$69`, R203 -/
  | adcImm (nn : Byte)
  /-- `ADC $nn`, opcode `$65`, R203 -/
  | adcZp (nn : Byte)
  /-- `ADC $nn,X`, opcode `$75`, R203 -/
  | adcZpX (nn : Byte)
  /-- `ADC $hhll`, opcode `$6D`, R203 -/
  | adcAbs (w : Word)
  /-- `ADC $hhll,X`, opcode `$7D`, R203 -/
  | adcAbsX (w : Word)
  /-- `ADC $hhll,Y`, opcode `$79`, R203 -/
  | adcAbsY (w : Word)
  /-- `ADC ($nn,X)`, opcode `$61`, R203 -/
  | adcIzX (nn : Byte)
  /-- `ADC ($nn),Y`, opcode `$71`, R203 -/
  | adcIzY (nn : Byte)
  /-- `SBC #$nn`, opcode `$E9`, R204 -/
  | sbcImm (nn : Byte)
  /-- `SBC $nn`, opcode `$E5`, R204 -/
  | sbcZp (nn : Byte)
  /-- `SBC $nn,X`, opcode `$F5`, R204 -/
  | sbcZpX (nn : Byte)
  /-- `SBC $hhll`, opcode `$ED`, R204 -/
  | sbcAbs (w : Word)
  /-- `SBC $hhll,X`, opcode `$FD`, R204 -/
  | sbcAbsX (w : Word)
  /-- `SBC $hhll,Y`, opcode `$F9`, R204 -/
  | sbcAbsY (w : Word)
  /-- `SBC ($nn,X)`, opcode `$E1`, R204 -/
  | sbcIzX (nn : Byte)
  /-- `SBC ($nn),Y`, opcode `$F1`, R204 -/
  | sbcIzY (nn : Byte)
  /-- `AND #$nn`, opcode `$29`, R205 -/
  | andImm (nn : Byte)
  /-- `AND $nn`, opcode `$25`, R205 -/
  | andZp (nn : Byte)
  /-- `AND $nn,X`, opcode `$35`, R205 -/
  | andZpX (nn : Byte)
  /-- `AND $hhll`, opcode `$2D`, R205 -/
  | andAbs (w : Word)
  /-- `AND $hhll,X`, opcode `$3D`, R205 -/
  | andAbsX (w : Word)
  /-- `AND $hhll,Y`, opcode `$39`, R205 -/
  | andAbsY (w : Word)
  /-- `AND ($nn,X)`, opcode `$21`, R205 -/
  | andIzX (nn : Byte)
  /-- `AND ($nn),Y`, opcode `$31`, R205 -/
  | andIzY (nn : Byte)
  /-- `ORA #$nn`, opcode `$09`, R206 -/
  | oraImm (nn : Byte)
  /-- `ORA $nn`, opcode `$05`, R206 -/
  | oraZp (nn : Byte)
  /-- `ORA $nn,X`, opcode `$15`, R206 -/
  | oraZpX (nn : Byte)
  /-- `ORA $hhll`, opcode `$0D`, R206 -/
  | oraAbs (w : Word)
  /-- `ORA $hhll,X`, opcode `$1D`, R206 -/
  | oraAbsX (w : Word)
  /-- `ORA $hhll,Y`, opcode `$19`, R206 -/
  | oraAbsY (w : Word)
  /-- `ORA ($nn,X)`, opcode `$01`, R206 -/
  | oraIzX (nn : Byte)
  /-- `ORA ($nn),Y`, opcode `$11`, R206 -/
  | oraIzY (nn : Byte)
  /-- `EOR #$nn`, opcode `$49`, R207 -/
  | eorImm (nn : Byte)
  /-- `EOR $nn`, opcode `$45`, R207 -/
  | eorZp (nn : Byte)
  /-- `EOR $nn,X`, opcode `$55`, R207 -/
  | eorZpX (nn : Byte)
  /-- `EOR $hhll`, opcode `$4D`, R207 -/
  | eorAbs (w : Word)
  /-- `EOR $hhll,X`, opcode `$5D`, R207 -/
  | eorAbsX (w : Word)
  /-- `EOR $hhll,Y`, opcode `$59`, R207 -/
  | eorAbsY (w : Word)
  /-- `EOR ($nn,X)`, opcode `$41`, R207 -/
  | eorIzX (nn : Byte)
  /-- `EOR ($nn),Y`, opcode `$51`, R207 -/
  | eorIzY (nn : Byte)
  /-- `CMP #$nn`, opcode `$C9`, R208 -/
  | cmpImm (nn : Byte)
  /-- `CMP $nn`, opcode `$C5`, R208 -/
  | cmpZp (nn : Byte)
  /-- `CMP $nn,X`, opcode `$D5`, R208 -/
  | cmpZpX (nn : Byte)
  /-- `CMP $hhll`, opcode `$CD`, R208 -/
  | cmpAbs (w : Word)
  /-- `CMP $hhll,X`, opcode `$DD`, R208 -/
  | cmpAbsX (w : Word)
  /-- `CMP $hhll,Y`, opcode `$D9`, R208 -/
  | cmpAbsY (w : Word)
  /-- `CMP ($nn,X)`, opcode `$C1`, R208 -/
  | cmpIzX (nn : Byte)
  /-- `CMP ($nn),Y`, opcode `$D1`, R208 -/
  | cmpIzY (nn : Byte)
  /-- `CPX #$nn`, opcode `$E0`, R209 -/
  | cpxImm (nn : Byte)
  /-- `CPX $nn`, opcode `$E4`, R209 -/
  | cpxZp (nn : Byte)
  /-- `CPX $hhll`, opcode `$EC`, R209 -/
  | cpxAbs (w : Word)
  /-- `CPY #$nn`, opcode `$C0`, R210 -/
  | cpyImm (nn : Byte)
  /-- `CPY $nn`, opcode `$C4`, R210 -/
  | cpyZp (nn : Byte)
  /-- `CPY $hhll`, opcode `$CC`, R210 -/
  | cpyAbs (w : Word)
  /-- `BIT $nn`, opcode `$24`, R211 -/
  | bitZp (nn : Byte)
  /-- `BIT $hhll`, opcode `$2C`, R211 -/
  | bitAbs (w : Word)
  /-- `STA $nn`, opcode `$85`, R220 -/
  | staZp (nn : Byte)
  /-- `STA $nn,X`, opcode `$95`, R220 -/
  | staZpX (nn : Byte)
  /-- `STA $hhll`, opcode `$8D`, R220 -/
  | staAbs (w : Word)
  /-- `STA $hhll,X`, opcode `$9D`, R220 -/
  | staAbsX (w : Word)
  /-- `STA $hhll,Y`, opcode `$99`, R220 -/
  | staAbsY (w : Word)
  /-- `STA ($nn,X)`, opcode `$81`, R220 -/
  | staIzX (nn : Byte)
  /-- `STA ($nn),Y`, opcode `$91`, R220 -/
  | staIzY (nn : Byte)
  /-- `STX $nn`, opcode `$86`, R221 -/
  | stxZp (nn : Byte)
  /-- `STX $nn,Y`, opcode `$96`, R221 -/
  | stxZpY (nn : Byte)
  /-- `STX $hhll`, opcode `$8E`, R221 -/
  | stxAbs (w : Word)
  /-- `STY $nn`, opcode `$84`, R222 -/
  | styZp (nn : Byte)
  /-- `STY $nn,X`, opcode `$94`, R222 -/
  | styZpX (nn : Byte)
  /-- `STY $hhll`, opcode `$8C`, R222 -/
  | styAbs (w : Word)
  /-- `INC $nn`, opcode `$E6`, R223 -/
  | incZp (nn : Byte)
  /-- `INC $nn,X`, opcode `$F6`, R223 -/
  | incZpX (nn : Byte)
  /-- `INC $hhll`, opcode `$EE`, R223 -/
  | incAbs (w : Word)
  /-- `INC $hhll,X`, opcode `$FE`, R223 -/
  | incAbsX (w : Word)
  /-- `DEC $nn`, opcode `$C6`, R224 -/
  | decZp (nn : Byte)
  /-- `DEC $nn,X`, opcode `$D6`, R224 -/
  | decZpX (nn : Byte)
  /-- `DEC $hhll`, opcode `$CE`, R224 -/
  | decAbs (w : Word)
  /-- `DEC $hhll,X`, opcode `$DE`, R224 -/
  | decAbsX (w : Word)
  /-- `JMP $hhll`, opcode `$4C`, R225 -/
  | jmpAbs (w : Word)
  /-- `JMP ($hhll)`, opcode `$6C`, R225 -/
  | jmpInd (w : Word)
  /-- `ASL A`, opcode `$0A`, R240 -/
  | aslAcc
  /-- `ASL $nn`, opcode `$06`, R240 -/
  | aslZp (nn : Byte)
  /-- `ASL $nn,X`, opcode `$16`, R240 -/
  | aslZpX (nn : Byte)
  /-- `ASL $hhll`, opcode `$0E`, R240 -/
  | aslAbs (w : Word)
  /-- `ASL $hhll,X`, opcode `$1E`, R240 -/
  | aslAbsX (w : Word)
  /-- `LSR A`, opcode `$4A`, R241 -/
  | lsrAcc
  /-- `LSR $nn`, opcode `$46`, R241 -/
  | lsrZp (nn : Byte)
  /-- `LSR $nn,X`, opcode `$56`, R241 -/
  | lsrZpX (nn : Byte)
  /-- `LSR $hhll`, opcode `$4E`, R241 -/
  | lsrAbs (w : Word)
  /-- `LSR $hhll,X`, opcode `$5E`, R241 -/
  | lsrAbsX (w : Word)
  /-- `ROL A`, opcode `$2A`, R242 -/
  | rolAcc
  /-- `ROL $nn`, opcode `$26`, R242 -/
  | rolZp (nn : Byte)
  /-- `ROL $nn,X`, opcode `$36`, R242 -/
  | rolZpX (nn : Byte)
  /-- `ROL $hhll`, opcode `$2E`, R242 -/
  | rolAbs (w : Word)
  /-- `ROL $hhll,X`, opcode `$3E`, R242 -/
  | rolAbsX (w : Word)
  /-- `ROR A`, opcode `$6A`, R243 -/
  | rorAcc
  /-- `ROR $nn`, opcode `$66`, R243 -/
  | rorZp (nn : Byte)
  /-- `ROR $nn,X`, opcode `$76`, R243 -/
  | rorZpX (nn : Byte)
  /-- `ROR $hhll`, opcode `$6E`, R243 -/
  | rorAbs (w : Word)
  /-- `ROR $hhll,X`, opcode `$7E`, R243 -/
  | rorAbsX (w : Word)
  /-- `BCC label`, opcode `$90`, R251 -/
  | bcc (nn : Byte)
  /-- `BCS label`, opcode `$B0`, R252 -/
  | bcs (nn : Byte)
  /-- `BEQ label`, opcode `$F0`, R253 -/
  | beq (nn : Byte)
  /-- `BNE label`, opcode `$D0`, R254 -/
  | bne (nn : Byte)
  /-- `BMI label`, opcode `$30`, R255 -/
  | bmi (nn : Byte)
  /-- `BPL label`, opcode `$10`, R256 -/
  | bpl (nn : Byte)
  /-- `BVC label`, opcode `$50`, R257 -/
  | bvc (nn : Byte)
  /-- `BVS label`, opcode `$70`, R258 -/
  | bvs (nn : Byte)
  /-- `PHA`, opcode `$48`, R270 -/
  | pha
  /-- `PLA`, opcode `$68`, R271 -/
  | pla
  /-- `PHP`, opcode `$08`, R272 -/
  | php
  /-- `PLP`, opcode `$28`, R273 -/
  | plp
  /-- `JSR $hhll`, opcode `$20`, R274 -/
  | jsr (w : Word)
  /-- `RTS`, opcode `$60`, R275 -/
  | rts
  /-- `BRK`, opcode `$00`, R276 -/
  | brk
  /-- `RTI`, opcode `$40`, R277 -/
  | rti
  deriving DecidableEq, Repr

end Sys2Proof
end

