-- ==== Sys2Proof/Decode.lean ====
section
/-!
DEFINITION. Bytes and instructions (30_encoding.md): the byte and word helpers of 00_scope.md R9 and
R10, the opcode map of R95, the decoder, the encoder, and the host's `decodeTableWord`.
-/

namespace Sys2Proof

/-! ## Bytes and words (00_scope.md R9, R10) -/

/-- `word(hi, lo) = hi * 256 + lo`. -/
def wordOf (hi lo : Byte) : Word := hi ++ lo

/-- `lo8(w) = w mod 256`. -/
def lowByte (w : Word) : Byte := w.setWidth 8

/-- `hi8(w) = w div 256`. -/
def highByte (w : Word) : Byte := (w >>> 8).setWidth 8

/-- `zext_16(b) = b`. -/
def zeroExtend (b : Byte) : Word := b.setWidth 16

/-- `sext_16(b) = b if b < 128 else b + 0xFF00`. -/
def signExtend (b : Byte) : Word := b.signExtend 16

/-! ## The opcode map (R95) -/

/-- What follows an opcode byte, by the formats of R91. -/
inductive Template where
  /-- F1: nothing -/
  | one (i : Instr)
  /-- F2: the operand byte `nn` -/
  | two (mk : Byte → Instr)
  /-- F3: the operand word, low byte first -/
  | three (mk : Word → Instr)

/-- Row `0x` of the matrix of R95. -/
def opcodeRow0 : List (Byte × Template) := [
  (0x00#8, .one .brk),
  (0x01#8, .two .oraIzX),
  (0x05#8, .two .oraZp),
  (0x06#8, .two .aslZp),
  (0x08#8, .one .php),
  (0x09#8, .two .oraImm),
  (0x0A#8, .one .aslAcc),
  (0x0D#8, .three .oraAbs),
  (0x0E#8, .three .aslAbs)]

/-- Row `1x` of the matrix of R95. -/
def opcodeRow1 : List (Byte × Template) := [
  (0x10#8, .two .bpl),
  (0x11#8, .two .oraIzY),
  (0x15#8, .two .oraZpX),
  (0x16#8, .two .aslZpX),
  (0x18#8, .one .clc),
  (0x19#8, .three .oraAbsY),
  (0x1D#8, .three .oraAbsX),
  (0x1E#8, .three .aslAbsX)]

/-- Row `2x` of the matrix of R95. -/
def opcodeRow2 : List (Byte × Template) := [
  (0x20#8, .three .jsr),
  (0x21#8, .two .andIzX),
  (0x24#8, .two .bitZp),
  (0x25#8, .two .andZp),
  (0x26#8, .two .rolZp),
  (0x28#8, .one .plp),
  (0x29#8, .two .andImm),
  (0x2A#8, .one .rolAcc),
  (0x2C#8, .three .bitAbs),
  (0x2D#8, .three .andAbs),
  (0x2E#8, .three .rolAbs)]

/-- Row `3x` of the matrix of R95. -/
def opcodeRow3 : List (Byte × Template) := [
  (0x30#8, .two .bmi),
  (0x31#8, .two .andIzY),
  (0x35#8, .two .andZpX),
  (0x36#8, .two .rolZpX),
  (0x38#8, .one .sec),
  (0x39#8, .three .andAbsY),
  (0x3D#8, .three .andAbsX),
  (0x3E#8, .three .rolAbsX)]

/-- Row `4x` of the matrix of R95. -/
def opcodeRow4 : List (Byte × Template) := [
  (0x40#8, .one .rti),
  (0x41#8, .two .eorIzX),
  (0x45#8, .two .eorZp),
  (0x46#8, .two .lsrZp),
  (0x48#8, .one .pha),
  (0x49#8, .two .eorImm),
  (0x4A#8, .one .lsrAcc),
  (0x4C#8, .three .jmpAbs),
  (0x4D#8, .three .eorAbs),
  (0x4E#8, .three .lsrAbs)]

/-- Row `5x` of the matrix of R95. -/
def opcodeRow5 : List (Byte × Template) := [
  (0x50#8, .two .bvc),
  (0x51#8, .two .eorIzY),
  (0x55#8, .two .eorZpX),
  (0x56#8, .two .lsrZpX),
  (0x58#8, .one .cli),
  (0x59#8, .three .eorAbsY),
  (0x5D#8, .three .eorAbsX),
  (0x5E#8, .three .lsrAbsX)]

/-- Row `6x` of the matrix of R95. -/
def opcodeRow6 : List (Byte × Template) := [
  (0x60#8, .one .rts),
  (0x61#8, .two .adcIzX),
  (0x65#8, .two .adcZp),
  (0x66#8, .two .rorZp),
  (0x68#8, .one .pla),
  (0x69#8, .two .adcImm),
  (0x6A#8, .one .rorAcc),
  (0x6C#8, .three .jmpInd),
  (0x6D#8, .three .adcAbs),
  (0x6E#8, .three .rorAbs)]

/-- Row `7x` of the matrix of R95. -/
def opcodeRow7 : List (Byte × Template) := [
  (0x70#8, .two .bvs),
  (0x71#8, .two .adcIzY),
  (0x75#8, .two .adcZpX),
  (0x76#8, .two .rorZpX),
  (0x78#8, .one .sei),
  (0x79#8, .three .adcAbsY),
  (0x7D#8, .three .adcAbsX),
  (0x7E#8, .three .rorAbsX)]

/-- Row `8x` of the matrix of R95. -/
def opcodeRow8 : List (Byte × Template) := [
  (0x81#8, .two .staIzX),
  (0x84#8, .two .styZp),
  (0x85#8, .two .staZp),
  (0x86#8, .two .stxZp),
  (0x88#8, .one .dey),
  (0x8A#8, .one .txa),
  (0x8C#8, .three .styAbs),
  (0x8D#8, .three .staAbs),
  (0x8E#8, .three .stxAbs)]

/-- Row `9x` of the matrix of R95. -/
def opcodeRow9 : List (Byte × Template) := [
  (0x90#8, .two .bcc),
  (0x91#8, .two .staIzY),
  (0x94#8, .two .styZpX),
  (0x95#8, .two .staZpX),
  (0x96#8, .two .stxZpY),
  (0x98#8, .one .tya),
  (0x99#8, .three .staAbsY),
  (0x9A#8, .one .txs),
  (0x9D#8, .three .staAbsX)]

/-- Row `Ax` of the matrix of R95. -/
def opcodeRowA : List (Byte × Template) := [
  (0xA0#8, .two .ldyImm),
  (0xA1#8, .two .ldaIzX),
  (0xA2#8, .two .ldxImm),
  (0xA4#8, .two .ldyZp),
  (0xA5#8, .two .ldaZp),
  (0xA6#8, .two .ldxZp),
  (0xA8#8, .one .tay),
  (0xA9#8, .two .ldaImm),
  (0xAA#8, .one .tax),
  (0xAC#8, .three .ldyAbs),
  (0xAD#8, .three .ldaAbs),
  (0xAE#8, .three .ldxAbs)]

/-- Row `Bx` of the matrix of R95. -/
def opcodeRowB : List (Byte × Template) := [
  (0xB0#8, .two .bcs),
  (0xB1#8, .two .ldaIzY),
  (0xB4#8, .two .ldyZpX),
  (0xB5#8, .two .ldaZpX),
  (0xB6#8, .two .ldxZpY),
  (0xB8#8, .one .clv),
  (0xB9#8, .three .ldaAbsY),
  (0xBA#8, .one .tsx),
  (0xBC#8, .three .ldyAbsX),
  (0xBD#8, .three .ldaAbsX),
  (0xBE#8, .three .ldxAbsY)]

/-- Row `Cx` of the matrix of R95. -/
def opcodeRowC : List (Byte × Template) := [
  (0xC0#8, .two .cpyImm),
  (0xC1#8, .two .cmpIzX),
  (0xC4#8, .two .cpyZp),
  (0xC5#8, .two .cmpZp),
  (0xC6#8, .two .decZp),
  (0xC8#8, .one .iny),
  (0xC9#8, .two .cmpImm),
  (0xCA#8, .one .dex),
  (0xCC#8, .three .cpyAbs),
  (0xCD#8, .three .cmpAbs),
  (0xCE#8, .three .decAbs)]

/-- Row `Dx` of the matrix of R95. -/
def opcodeRowD : List (Byte × Template) := [
  (0xD0#8, .two .bne),
  (0xD1#8, .two .cmpIzY),
  (0xD5#8, .two .cmpZpX),
  (0xD6#8, .two .decZpX),
  (0xD8#8, .one .cld),
  (0xD9#8, .three .cmpAbsY),
  (0xDD#8, .three .cmpAbsX),
  (0xDE#8, .three .decAbsX)]

/-- Row `Ex` of the matrix of R95. -/
def opcodeRowE : List (Byte × Template) := [
  (0xE0#8, .two .cpxImm),
  (0xE1#8, .two .sbcIzX),
  (0xE4#8, .two .cpxZp),
  (0xE5#8, .two .sbcZp),
  (0xE6#8, .two .incZp),
  (0xE8#8, .one .inx),
  (0xE9#8, .two .sbcImm),
  (0xEA#8, .one .nop),
  (0xEC#8, .three .cpxAbs),
  (0xED#8, .three .sbcAbs),
  (0xEE#8, .three .incAbs)]

/-- Row `Fx` of the matrix of R95. -/
def opcodeRowF : List (Byte × Template) := [
  (0xF0#8, .two .beq),
  (0xF1#8, .two .sbcIzY),
  (0xF5#8, .two .sbcZpX),
  (0xF6#8, .two .incZpX),
  (0xF8#8, .one .sed),
  (0xF9#8, .three .sbcAbsY),
  (0xFD#8, .three .sbcAbsX),
  (0xFE#8, .three .incAbsX)]

/-- The rows of the matrix of R95, by the opcode's high nibble. -/
def opcodeRow : Nat → List (Byte × Template)
  | 0 => opcodeRow0
  | 1 => opcodeRow1
  | 2 => opcodeRow2
  | 3 => opcodeRow3
  | 4 => opcodeRow4
  | 5 => opcodeRow5
  | 6 => opcodeRow6
  | 7 => opcodeRow7
  | 8 => opcodeRow8
  | 9 => opcodeRow9
  | 10 => opcodeRowA
  | 11 => opcodeRowB
  | 12 => opcodeRowC
  | 13 => opcodeRowD
  | 14 => opcodeRowE
  | 15 => opcodeRowF
  | _ => []

/-- R92: the decoder looks byte 0 up; there is no other way to find the length. "Rows are the opcode's
high nibble" (R95). -/
def template (opcode : Byte) : Option Template := (opcodeRow (opcode.toNat / 16)).lookup opcode

/-! ## The decoder -/

/-- Why bytes spell no instruction. -/
inductive DecodeError where
  /-- there is no byte to decode -/
  | noBytes
  /-- the first byte is one of the 105 unknown opcodes of R98 -/
  | unknownOpcode (opcode : Byte)
  /-- operand bytes are missing -/
  | truncated (opcode : Byte)
  deriving DecidableEq, Repr

/-- The instruction at the head of `bytes`, with the bytes after it (R90 to R93). -/
def decode : List Byte → Except DecodeError (Instr × List Byte)
  | [] => .error .noBytes
  | op :: rest =>
    match template op with
    | none => .error (.unknownOpcode op)
    | some (.one i) => .ok (i, rest)
    | some (.two mk) =>
      match rest with
      | nn :: rest => .ok (mk nn, rest)
      | [] => .error (.truncated op)
    | some (.three mk) =>
      match rest with
      | ll :: hh :: rest => .ok (mk (wordOf hh ll), rest)
      | _ => .error (.truncated op)

/-! ## The encoder -/

/-- The opcode byte of an instruction, from the table of its rule (files 41 to 46). -/
def Instr.opcode : Instr → Byte
  | .tax => 0xAA#8
  | .tay => 0xA8#8
  | .txa => 0x8A#8
  | .tya => 0x98#8
  | .tsx => 0xBA#8
  | .txs => 0x9A#8
  | .inx => 0xE8#8
  | .iny => 0xC8#8
  | .dex => 0xCA#8
  | .dey => 0x88#8
  | .clc => 0x18#8
  | .sec => 0x38#8
  | .cli => 0x58#8
  | .sei => 0x78#8
  | .cld => 0xD8#8
  | .sed => 0xF8#8
  | .clv => 0xB8#8
  | .nop => 0xEA#8
  | .ldaImm _ => 0xA9#8
  | .ldaZp _ => 0xA5#8
  | .ldaZpX _ => 0xB5#8
  | .ldaAbs _ => 0xAD#8
  | .ldaAbsX _ => 0xBD#8
  | .ldaAbsY _ => 0xB9#8
  | .ldaIzX _ => 0xA1#8
  | .ldaIzY _ => 0xB1#8
  | .ldxImm _ => 0xA2#8
  | .ldxZp _ => 0xA6#8
  | .ldxZpY _ => 0xB6#8
  | .ldxAbs _ => 0xAE#8
  | .ldxAbsY _ => 0xBE#8
  | .ldyImm _ => 0xA0#8
  | .ldyZp _ => 0xA4#8
  | .ldyZpX _ => 0xB4#8
  | .ldyAbs _ => 0xAC#8
  | .ldyAbsX _ => 0xBC#8
  | .adcImm _ => 0x69#8
  | .adcZp _ => 0x65#8
  | .adcZpX _ => 0x75#8
  | .adcAbs _ => 0x6D#8
  | .adcAbsX _ => 0x7D#8
  | .adcAbsY _ => 0x79#8
  | .adcIzX _ => 0x61#8
  | .adcIzY _ => 0x71#8
  | .sbcImm _ => 0xE9#8
  | .sbcZp _ => 0xE5#8
  | .sbcZpX _ => 0xF5#8
  | .sbcAbs _ => 0xED#8
  | .sbcAbsX _ => 0xFD#8
  | .sbcAbsY _ => 0xF9#8
  | .sbcIzX _ => 0xE1#8
  | .sbcIzY _ => 0xF1#8
  | .andImm _ => 0x29#8
  | .andZp _ => 0x25#8
  | .andZpX _ => 0x35#8
  | .andAbs _ => 0x2D#8
  | .andAbsX _ => 0x3D#8
  | .andAbsY _ => 0x39#8
  | .andIzX _ => 0x21#8
  | .andIzY _ => 0x31#8
  | .oraImm _ => 0x09#8
  | .oraZp _ => 0x05#8
  | .oraZpX _ => 0x15#8
  | .oraAbs _ => 0x0D#8
  | .oraAbsX _ => 0x1D#8
  | .oraAbsY _ => 0x19#8
  | .oraIzX _ => 0x01#8
  | .oraIzY _ => 0x11#8
  | .eorImm _ => 0x49#8
  | .eorZp _ => 0x45#8
  | .eorZpX _ => 0x55#8
  | .eorAbs _ => 0x4D#8
  | .eorAbsX _ => 0x5D#8
  | .eorAbsY _ => 0x59#8
  | .eorIzX _ => 0x41#8
  | .eorIzY _ => 0x51#8
  | .cmpImm _ => 0xC9#8
  | .cmpZp _ => 0xC5#8
  | .cmpZpX _ => 0xD5#8
  | .cmpAbs _ => 0xCD#8
  | .cmpAbsX _ => 0xDD#8
  | .cmpAbsY _ => 0xD9#8
  | .cmpIzX _ => 0xC1#8
  | .cmpIzY _ => 0xD1#8
  | .cpxImm _ => 0xE0#8
  | .cpxZp _ => 0xE4#8
  | .cpxAbs _ => 0xEC#8
  | .cpyImm _ => 0xC0#8
  | .cpyZp _ => 0xC4#8
  | .cpyAbs _ => 0xCC#8
  | .bitZp _ => 0x24#8
  | .bitAbs _ => 0x2C#8
  | .staZp _ => 0x85#8
  | .staZpX _ => 0x95#8
  | .staAbs _ => 0x8D#8
  | .staAbsX _ => 0x9D#8
  | .staAbsY _ => 0x99#8
  | .staIzX _ => 0x81#8
  | .staIzY _ => 0x91#8
  | .stxZp _ => 0x86#8
  | .stxZpY _ => 0x96#8
  | .stxAbs _ => 0x8E#8
  | .styZp _ => 0x84#8
  | .styZpX _ => 0x94#8
  | .styAbs _ => 0x8C#8
  | .incZp _ => 0xE6#8
  | .incZpX _ => 0xF6#8
  | .incAbs _ => 0xEE#8
  | .incAbsX _ => 0xFE#8
  | .decZp _ => 0xC6#8
  | .decZpX _ => 0xD6#8
  | .decAbs _ => 0xCE#8
  | .decAbsX _ => 0xDE#8
  | .jmpAbs _ => 0x4C#8
  | .jmpInd _ => 0x6C#8
  | .aslAcc => 0x0A#8
  | .aslZp _ => 0x06#8
  | .aslZpX _ => 0x16#8
  | .aslAbs _ => 0x0E#8
  | .aslAbsX _ => 0x1E#8
  | .lsrAcc => 0x4A#8
  | .lsrZp _ => 0x46#8
  | .lsrZpX _ => 0x56#8
  | .lsrAbs _ => 0x4E#8
  | .lsrAbsX _ => 0x5E#8
  | .rolAcc => 0x2A#8
  | .rolZp _ => 0x26#8
  | .rolZpX _ => 0x36#8
  | .rolAbs _ => 0x2E#8
  | .rolAbsX _ => 0x3E#8
  | .rorAcc => 0x6A#8
  | .rorZp _ => 0x66#8
  | .rorZpX _ => 0x76#8
  | .rorAbs _ => 0x6E#8
  | .rorAbsX _ => 0x7E#8
  | .bcc _ => 0x90#8
  | .bcs _ => 0xB0#8
  | .beq _ => 0xF0#8
  | .bne _ => 0xD0#8
  | .bmi _ => 0x30#8
  | .bpl _ => 0x10#8
  | .bvc _ => 0x50#8
  | .bvs _ => 0x70#8
  | .pha => 0x48#8
  | .pla => 0x68#8
  | .php => 0x08#8
  | .plp => 0x28#8
  | .jsr _ => 0x20#8
  | .rts => 0x60#8
  | .brk => 0x00#8
  | .rti => 0x40#8

/-- The operand bytes of an instruction, low byte first (R93). -/
def Instr.operandBytes : Instr → List Byte
  | .tax => []
  | .tay => []
  | .txa => []
  | .tya => []
  | .tsx => []
  | .txs => []
  | .inx => []
  | .iny => []
  | .dex => []
  | .dey => []
  | .clc => []
  | .sec => []
  | .cli => []
  | .sei => []
  | .cld => []
  | .sed => []
  | .clv => []
  | .nop => []
  | .ldaImm nn => [nn]
  | .ldaZp nn => [nn]
  | .ldaZpX nn => [nn]
  | .ldaAbs w => [lowByte w, highByte w]
  | .ldaAbsX w => [lowByte w, highByte w]
  | .ldaAbsY w => [lowByte w, highByte w]
  | .ldaIzX nn => [nn]
  | .ldaIzY nn => [nn]
  | .ldxImm nn => [nn]
  | .ldxZp nn => [nn]
  | .ldxZpY nn => [nn]
  | .ldxAbs w => [lowByte w, highByte w]
  | .ldxAbsY w => [lowByte w, highByte w]
  | .ldyImm nn => [nn]
  | .ldyZp nn => [nn]
  | .ldyZpX nn => [nn]
  | .ldyAbs w => [lowByte w, highByte w]
  | .ldyAbsX w => [lowByte w, highByte w]
  | .adcImm nn => [nn]
  | .adcZp nn => [nn]
  | .adcZpX nn => [nn]
  | .adcAbs w => [lowByte w, highByte w]
  | .adcAbsX w => [lowByte w, highByte w]
  | .adcAbsY w => [lowByte w, highByte w]
  | .adcIzX nn => [nn]
  | .adcIzY nn => [nn]
  | .sbcImm nn => [nn]
  | .sbcZp nn => [nn]
  | .sbcZpX nn => [nn]
  | .sbcAbs w => [lowByte w, highByte w]
  | .sbcAbsX w => [lowByte w, highByte w]
  | .sbcAbsY w => [lowByte w, highByte w]
  | .sbcIzX nn => [nn]
  | .sbcIzY nn => [nn]
  | .andImm nn => [nn]
  | .andZp nn => [nn]
  | .andZpX nn => [nn]
  | .andAbs w => [lowByte w, highByte w]
  | .andAbsX w => [lowByte w, highByte w]
  | .andAbsY w => [lowByte w, highByte w]
  | .andIzX nn => [nn]
  | .andIzY nn => [nn]
  | .oraImm nn => [nn]
  | .oraZp nn => [nn]
  | .oraZpX nn => [nn]
  | .oraAbs w => [lowByte w, highByte w]
  | .oraAbsX w => [lowByte w, highByte w]
  | .oraAbsY w => [lowByte w, highByte w]
  | .oraIzX nn => [nn]
  | .oraIzY nn => [nn]
  | .eorImm nn => [nn]
  | .eorZp nn => [nn]
  | .eorZpX nn => [nn]
  | .eorAbs w => [lowByte w, highByte w]
  | .eorAbsX w => [lowByte w, highByte w]
  | .eorAbsY w => [lowByte w, highByte w]
  | .eorIzX nn => [nn]
  | .eorIzY nn => [nn]
  | .cmpImm nn => [nn]
  | .cmpZp nn => [nn]
  | .cmpZpX nn => [nn]
  | .cmpAbs w => [lowByte w, highByte w]
  | .cmpAbsX w => [lowByte w, highByte w]
  | .cmpAbsY w => [lowByte w, highByte w]
  | .cmpIzX nn => [nn]
  | .cmpIzY nn => [nn]
  | .cpxImm nn => [nn]
  | .cpxZp nn => [nn]
  | .cpxAbs w => [lowByte w, highByte w]
  | .cpyImm nn => [nn]
  | .cpyZp nn => [nn]
  | .cpyAbs w => [lowByte w, highByte w]
  | .bitZp nn => [nn]
  | .bitAbs w => [lowByte w, highByte w]
  | .staZp nn => [nn]
  | .staZpX nn => [nn]
  | .staAbs w => [lowByte w, highByte w]
  | .staAbsX w => [lowByte w, highByte w]
  | .staAbsY w => [lowByte w, highByte w]
  | .staIzX nn => [nn]
  | .staIzY nn => [nn]
  | .stxZp nn => [nn]
  | .stxZpY nn => [nn]
  | .stxAbs w => [lowByte w, highByte w]
  | .styZp nn => [nn]
  | .styZpX nn => [nn]
  | .styAbs w => [lowByte w, highByte w]
  | .incZp nn => [nn]
  | .incZpX nn => [nn]
  | .incAbs w => [lowByte w, highByte w]
  | .incAbsX w => [lowByte w, highByte w]
  | .decZp nn => [nn]
  | .decZpX nn => [nn]
  | .decAbs w => [lowByte w, highByte w]
  | .decAbsX w => [lowByte w, highByte w]
  | .jmpAbs w => [lowByte w, highByte w]
  | .jmpInd w => [lowByte w, highByte w]
  | .aslAcc => []
  | .aslZp nn => [nn]
  | .aslZpX nn => [nn]
  | .aslAbs w => [lowByte w, highByte w]
  | .aslAbsX w => [lowByte w, highByte w]
  | .lsrAcc => []
  | .lsrZp nn => [nn]
  | .lsrZpX nn => [nn]
  | .lsrAbs w => [lowByte w, highByte w]
  | .lsrAbsX w => [lowByte w, highByte w]
  | .rolAcc => []
  | .rolZp nn => [nn]
  | .rolZpX nn => [nn]
  | .rolAbs w => [lowByte w, highByte w]
  | .rolAbsX w => [lowByte w, highByte w]
  | .rorAcc => []
  | .rorZp nn => [nn]
  | .rorZpX nn => [nn]
  | .rorAbs w => [lowByte w, highByte w]
  | .rorAbsX w => [lowByte w, highByte w]
  | .bcc nn => [nn]
  | .bcs nn => [nn]
  | .beq nn => [nn]
  | .bne nn => [nn]
  | .bmi nn => [nn]
  | .bpl nn => [nn]
  | .bvc nn => [nn]
  | .bvs nn => [nn]
  | .pha => []
  | .pla => []
  | .php => []
  | .plp => []
  | .jsr w => [lowByte w, highByte w]
  | .rts => []
  | .brk => []
  | .rti => []

/-- The bytes of an instruction at ascending addresses (R90). -/
def encode (i : Instr) : List Byte := i.opcode :: i.operandBytes

/-- "Encoded size in bytes" = 1 + operand count (R90). -/
def Instr.length (i : Instr) : Nat := 1 + i.operandBytes.length

/-- Byte `k` of an instruction whose bits are `w`, numbered from its first byte's bit 0, when the
table gives it `nbits` bits: the bits above `nbits` are 0. -/
def tableByte (nbits w k : Nat) : Byte := BitVec.ofNat 8 ((w % 2 ^ nbits) >>> (8 * k))

/-- The longest instruction's bytes for such a word, in memory order. -/
def tableBytes (nbits w : Nat) : List Byte :=
  [tableByte nbits w 0, tableByte nbits w 1, tableByte nbits w 2]

/-- The instruction the decoder reads from an instruction whose bits are `w`. -/
def decodeTableWord (nbits w : Nat) : Option Instr :=
  match decode (tableBytes nbits w) with
  | .ok (i, _) => some i
  | .error _ => none

end Sys2Proof
end

