-- ==== Sys2Proof/Machine/Table.lean ====
section
/-!
DEFINITION. The instruction table (30_encoding.md R94): each instruction's mnemonic and addressing
mode, the default rows (R95, R103), and the default parameters (00_scope.md R8).
-/

namespace Sys2Proof

/-- The nine addressing modes that resolve to an address, with their operand bytes (R91, R93;
40_step_addressing_flags.md R130 to R138). -/
inductive Address where
  | zeroPage (nn : Byte)
  | zeroPageX (nn : Byte)
  | zeroPageY (nn : Byte)
  | absolute (w : Word)
  | absoluteX (w : Word)
  | absoluteY (w : Word)
  | indexedIndirectX (nn : Byte)
  | indirectIndexedY (nn : Byte)
  | indirect (w : Word)
  deriving DecidableEq, Repr

/-- The thirteen addressing modes with their operand bytes (R91; R126 to R138). -/
inductive Operand where
  | implied
  | accumulator
  | immediate (nn : Byte)
  | relative (nn : Byte)
  | memory (m : Address)
  deriving DecidableEq, Repr

/-- The mnemonic of an instruction's row. -/
def Instr.mnemonic : Instr → Mnemonic
  | .tax => .tax
  | .tay => .tay
  | .txa => .txa
  | .tya => .tya
  | .tsx => .tsx
  | .txs => .txs
  | .inx => .inx
  | .iny => .iny
  | .dex => .dex
  | .dey => .dey
  | .clc => .clc
  | .sec => .sec
  | .cli => .cli
  | .sei => .sei
  | .cld => .cld
  | .sed => .sed
  | .clv => .clv
  | .nop => .nop
  | .ldaImm _ => .lda
  | .ldaZp _ => .lda
  | .ldaZpX _ => .lda
  | .ldaAbs _ => .lda
  | .ldaAbsX _ => .lda
  | .ldaAbsY _ => .lda
  | .ldaIzX _ => .lda
  | .ldaIzY _ => .lda
  | .ldxImm _ => .ldx
  | .ldxZp _ => .ldx
  | .ldxZpY _ => .ldx
  | .ldxAbs _ => .ldx
  | .ldxAbsY _ => .ldx
  | .ldyImm _ => .ldy
  | .ldyZp _ => .ldy
  | .ldyZpX _ => .ldy
  | .ldyAbs _ => .ldy
  | .ldyAbsX _ => .ldy
  | .adcImm _ => .adc
  | .adcZp _ => .adc
  | .adcZpX _ => .adc
  | .adcAbs _ => .adc
  | .adcAbsX _ => .adc
  | .adcAbsY _ => .adc
  | .adcIzX _ => .adc
  | .adcIzY _ => .adc
  | .sbcImm _ => .sbc
  | .sbcZp _ => .sbc
  | .sbcZpX _ => .sbc
  | .sbcAbs _ => .sbc
  | .sbcAbsX _ => .sbc
  | .sbcAbsY _ => .sbc
  | .sbcIzX _ => .sbc
  | .sbcIzY _ => .sbc
  | .andImm _ => .and
  | .andZp _ => .and
  | .andZpX _ => .and
  | .andAbs _ => .and
  | .andAbsX _ => .and
  | .andAbsY _ => .and
  | .andIzX _ => .and
  | .andIzY _ => .and
  | .oraImm _ => .ora
  | .oraZp _ => .ora
  | .oraZpX _ => .ora
  | .oraAbs _ => .ora
  | .oraAbsX _ => .ora
  | .oraAbsY _ => .ora
  | .oraIzX _ => .ora
  | .oraIzY _ => .ora
  | .eorImm _ => .eor
  | .eorZp _ => .eor
  | .eorZpX _ => .eor
  | .eorAbs _ => .eor
  | .eorAbsX _ => .eor
  | .eorAbsY _ => .eor
  | .eorIzX _ => .eor
  | .eorIzY _ => .eor
  | .cmpImm _ => .cmp
  | .cmpZp _ => .cmp
  | .cmpZpX _ => .cmp
  | .cmpAbs _ => .cmp
  | .cmpAbsX _ => .cmp
  | .cmpAbsY _ => .cmp
  | .cmpIzX _ => .cmp
  | .cmpIzY _ => .cmp
  | .cpxImm _ => .cpx
  | .cpxZp _ => .cpx
  | .cpxAbs _ => .cpx
  | .cpyImm _ => .cpy
  | .cpyZp _ => .cpy
  | .cpyAbs _ => .cpy
  | .bitZp _ => .bit
  | .bitAbs _ => .bit
  | .staZp _ => .sta
  | .staZpX _ => .sta
  | .staAbs _ => .sta
  | .staAbsX _ => .sta
  | .staAbsY _ => .sta
  | .staIzX _ => .sta
  | .staIzY _ => .sta
  | .stxZp _ => .stx
  | .stxZpY _ => .stx
  | .stxAbs _ => .stx
  | .styZp _ => .sty
  | .styZpX _ => .sty
  | .styAbs _ => .sty
  | .incZp _ => .inc
  | .incZpX _ => .inc
  | .incAbs _ => .inc
  | .incAbsX _ => .inc
  | .decZp _ => .dec
  | .decZpX _ => .dec
  | .decAbs _ => .dec
  | .decAbsX _ => .dec
  | .jmpAbs _ => .jmp
  | .jmpInd _ => .jmp
  | .aslAcc => .asl
  | .aslZp _ => .asl
  | .aslZpX _ => .asl
  | .aslAbs _ => .asl
  | .aslAbsX _ => .asl
  | .lsrAcc => .lsr
  | .lsrZp _ => .lsr
  | .lsrZpX _ => .lsr
  | .lsrAbs _ => .lsr
  | .lsrAbsX _ => .lsr
  | .rolAcc => .rol
  | .rolZp _ => .rol
  | .rolZpX _ => .rol
  | .rolAbs _ => .rol
  | .rolAbsX _ => .rol
  | .rorAcc => .ror
  | .rorZp _ => .ror
  | .rorZpX _ => .ror
  | .rorAbs _ => .ror
  | .rorAbsX _ => .ror
  | .bcc _ => .bcc
  | .bcs _ => .bcs
  | .beq _ => .beq
  | .bne _ => .bne
  | .bmi _ => .bmi
  | .bpl _ => .bpl
  | .bvc _ => .bvc
  | .bvs _ => .bvs
  | .pha => .pha
  | .pla => .pla
  | .php => .php
  | .plp => .plp
  | .jsr _ => .jsr
  | .rts => .rts
  | .brk => .brk
  | .rti => .rti

/-- The addressing mode and operand of an instruction's row. -/
def Instr.operand : Instr → Operand
  | .tax => .implied
  | .tay => .implied
  | .txa => .implied
  | .tya => .implied
  | .tsx => .implied
  | .txs => .implied
  | .inx => .implied
  | .iny => .implied
  | .dex => .implied
  | .dey => .implied
  | .clc => .implied
  | .sec => .implied
  | .cli => .implied
  | .sei => .implied
  | .cld => .implied
  | .sed => .implied
  | .clv => .implied
  | .nop => .implied
  | .ldaImm nn => .immediate nn
  | .ldaZp nn => .memory (.zeroPage nn)
  | .ldaZpX nn => .memory (.zeroPageX nn)
  | .ldaAbs w => .memory (.absolute w)
  | .ldaAbsX w => .memory (.absoluteX w)
  | .ldaAbsY w => .memory (.absoluteY w)
  | .ldaIzX nn => .memory (.indexedIndirectX nn)
  | .ldaIzY nn => .memory (.indirectIndexedY nn)
  | .ldxImm nn => .immediate nn
  | .ldxZp nn => .memory (.zeroPage nn)
  | .ldxZpY nn => .memory (.zeroPageY nn)
  | .ldxAbs w => .memory (.absolute w)
  | .ldxAbsY w => .memory (.absoluteY w)
  | .ldyImm nn => .immediate nn
  | .ldyZp nn => .memory (.zeroPage nn)
  | .ldyZpX nn => .memory (.zeroPageX nn)
  | .ldyAbs w => .memory (.absolute w)
  | .ldyAbsX w => .memory (.absoluteX w)
  | .adcImm nn => .immediate nn
  | .adcZp nn => .memory (.zeroPage nn)
  | .adcZpX nn => .memory (.zeroPageX nn)
  | .adcAbs w => .memory (.absolute w)
  | .adcAbsX w => .memory (.absoluteX w)
  | .adcAbsY w => .memory (.absoluteY w)
  | .adcIzX nn => .memory (.indexedIndirectX nn)
  | .adcIzY nn => .memory (.indirectIndexedY nn)
  | .sbcImm nn => .immediate nn
  | .sbcZp nn => .memory (.zeroPage nn)
  | .sbcZpX nn => .memory (.zeroPageX nn)
  | .sbcAbs w => .memory (.absolute w)
  | .sbcAbsX w => .memory (.absoluteX w)
  | .sbcAbsY w => .memory (.absoluteY w)
  | .sbcIzX nn => .memory (.indexedIndirectX nn)
  | .sbcIzY nn => .memory (.indirectIndexedY nn)
  | .andImm nn => .immediate nn
  | .andZp nn => .memory (.zeroPage nn)
  | .andZpX nn => .memory (.zeroPageX nn)
  | .andAbs w => .memory (.absolute w)
  | .andAbsX w => .memory (.absoluteX w)
  | .andAbsY w => .memory (.absoluteY w)
  | .andIzX nn => .memory (.indexedIndirectX nn)
  | .andIzY nn => .memory (.indirectIndexedY nn)
  | .oraImm nn => .immediate nn
  | .oraZp nn => .memory (.zeroPage nn)
  | .oraZpX nn => .memory (.zeroPageX nn)
  | .oraAbs w => .memory (.absolute w)
  | .oraAbsX w => .memory (.absoluteX w)
  | .oraAbsY w => .memory (.absoluteY w)
  | .oraIzX nn => .memory (.indexedIndirectX nn)
  | .oraIzY nn => .memory (.indirectIndexedY nn)
  | .eorImm nn => .immediate nn
  | .eorZp nn => .memory (.zeroPage nn)
  | .eorZpX nn => .memory (.zeroPageX nn)
  | .eorAbs w => .memory (.absolute w)
  | .eorAbsX w => .memory (.absoluteX w)
  | .eorAbsY w => .memory (.absoluteY w)
  | .eorIzX nn => .memory (.indexedIndirectX nn)
  | .eorIzY nn => .memory (.indirectIndexedY nn)
  | .cmpImm nn => .immediate nn
  | .cmpZp nn => .memory (.zeroPage nn)
  | .cmpZpX nn => .memory (.zeroPageX nn)
  | .cmpAbs w => .memory (.absolute w)
  | .cmpAbsX w => .memory (.absoluteX w)
  | .cmpAbsY w => .memory (.absoluteY w)
  | .cmpIzX nn => .memory (.indexedIndirectX nn)
  | .cmpIzY nn => .memory (.indirectIndexedY nn)
  | .cpxImm nn => .immediate nn
  | .cpxZp nn => .memory (.zeroPage nn)
  | .cpxAbs w => .memory (.absolute w)
  | .cpyImm nn => .immediate nn
  | .cpyZp nn => .memory (.zeroPage nn)
  | .cpyAbs w => .memory (.absolute w)
  | .bitZp nn => .memory (.zeroPage nn)
  | .bitAbs w => .memory (.absolute w)
  | .staZp nn => .memory (.zeroPage nn)
  | .staZpX nn => .memory (.zeroPageX nn)
  | .staAbs w => .memory (.absolute w)
  | .staAbsX w => .memory (.absoluteX w)
  | .staAbsY w => .memory (.absoluteY w)
  | .staIzX nn => .memory (.indexedIndirectX nn)
  | .staIzY nn => .memory (.indirectIndexedY nn)
  | .stxZp nn => .memory (.zeroPage nn)
  | .stxZpY nn => .memory (.zeroPageY nn)
  | .stxAbs w => .memory (.absolute w)
  | .styZp nn => .memory (.zeroPage nn)
  | .styZpX nn => .memory (.zeroPageX nn)
  | .styAbs w => .memory (.absolute w)
  | .incZp nn => .memory (.zeroPage nn)
  | .incZpX nn => .memory (.zeroPageX nn)
  | .incAbs w => .memory (.absolute w)
  | .incAbsX w => .memory (.absoluteX w)
  | .decZp nn => .memory (.zeroPage nn)
  | .decZpX nn => .memory (.zeroPageX nn)
  | .decAbs w => .memory (.absolute w)
  | .decAbsX w => .memory (.absoluteX w)
  | .jmpAbs w => .memory (.absolute w)
  | .jmpInd w => .memory (.indirect w)
  | .aslAcc => .accumulator
  | .aslZp nn => .memory (.zeroPage nn)
  | .aslZpX nn => .memory (.zeroPageX nn)
  | .aslAbs w => .memory (.absolute w)
  | .aslAbsX w => .memory (.absoluteX w)
  | .lsrAcc => .accumulator
  | .lsrZp nn => .memory (.zeroPage nn)
  | .lsrZpX nn => .memory (.zeroPageX nn)
  | .lsrAbs w => .memory (.absolute w)
  | .lsrAbsX w => .memory (.absoluteX w)
  | .rolAcc => .accumulator
  | .rolZp nn => .memory (.zeroPage nn)
  | .rolZpX nn => .memory (.zeroPageX nn)
  | .rolAbs w => .memory (.absolute w)
  | .rolAbsX w => .memory (.absoluteX w)
  | .rorAcc => .accumulator
  | .rorZp nn => .memory (.zeroPage nn)
  | .rorZpX nn => .memory (.zeroPageX nn)
  | .rorAbs w => .memory (.absolute w)
  | .rorAbsX w => .memory (.absoluteX w)
  | .bcc nn => .relative nn
  | .bcs nn => .relative nn
  | .beq nn => .relative nn
  | .bne nn => .relative nn
  | .bmi nn => .relative nn
  | .bpl nn => .relative nn
  | .bvc nn => .relative nn
  | .bvs nn => .relative nn
  | .pha => .implied
  | .pla => .implied
  | .php => .implied
  | .plp => .implied
  | .jsr w => .memory (.absolute w)
  | .rts => .implied
  | .brk => .implied
  | .rti => .implied

/-- The mode of an operand. -/
def Operand.mode : Operand → Mode
  | .implied => .implied
  | .accumulator => .accumulator
  | .immediate _ => .immediate
  | .relative _ => .relative
  | .memory (.zeroPage _) => .zeroPage
  | .memory (.zeroPageX _) => .zeroPageX
  | .memory (.zeroPageY _) => .zeroPageY
  | .memory (.absolute _) => .absolute
  | .memory (.absoluteX _) => .absoluteX
  | .memory (.absoluteY _) => .absoluteY
  | .memory (.indexedIndirectX _) => .indexedIndirectX
  | .memory (.indirectIndexedY _) => .indirectIndexedY
  | .memory (.indirect _) => .indirect

/-- The operand bytes, in the order they stand after the opcode (R91, R93). -/
def Operand.bytes : Operand → List Byte
  | .implied => []
  | .accumulator => []
  | .immediate nn => [nn]
  | .relative nn => [nn]
  | .memory (.zeroPage nn) => [nn]
  | .memory (.zeroPageX nn) => [nn]
  | .memory (.zeroPageY nn) => [nn]
  | .memory (.absolute w) => [lowByte w, highByte w]
  | .memory (.absoluteX w) => [lowByte w, highByte w]
  | .memory (.absoluteY w) => [lowByte w, highByte w]
  | .memory (.indexedIndirectX nn) => [nn]
  | .memory (.indirectIndexedY nn) => [nn]
  | .memory (.indirect w) => [lowByte w, highByte w]

/-- The encoded size of an instruction in a mode: 1 + operand count (R90, R91). -/
def Mode.size : Mode → Nat
  | .implied => 1
  | .accumulator => 1
  | .immediate => 2
  | .relative => 2
  | .zeroPage => 2
  | .zeroPageX => 2
  | .zeroPageY => 2
  | .absolute => 3
  | .absoluteX => 3
  | .absoluteY => 3
  | .indexedIndirectX => 2
  | .indirectIndexedY => 2
  | .indirect => 3

/-- The documented instruction of a mnemonic and an operand, for the 151 pairs of R95. -/
def Instr.ofParts (m : Mnemonic) (o : Operand) : Option Instr :=
  match m, o with
  | .tax, .implied => some .tax
  | .tay, .implied => some .tay
  | .txa, .implied => some .txa
  | .tya, .implied => some .tya
  | .tsx, .implied => some .tsx
  | .txs, .implied => some .txs
  | .inx, .implied => some .inx
  | .iny, .implied => some .iny
  | .dex, .implied => some .dex
  | .dey, .implied => some .dey
  | .clc, .implied => some .clc
  | .sec, .implied => some .sec
  | .cli, .implied => some .cli
  | .sei, .implied => some .sei
  | .cld, .implied => some .cld
  | .sed, .implied => some .sed
  | .clv, .implied => some .clv
  | .nop, .implied => some .nop
  | .lda, .immediate nn => some (.ldaImm nn)
  | .lda, .memory (.zeroPage nn) => some (.ldaZp nn)
  | .lda, .memory (.zeroPageX nn) => some (.ldaZpX nn)
  | .lda, .memory (.absolute w) => some (.ldaAbs w)
  | .lda, .memory (.absoluteX w) => some (.ldaAbsX w)
  | .lda, .memory (.absoluteY w) => some (.ldaAbsY w)
  | .lda, .memory (.indexedIndirectX nn) => some (.ldaIzX nn)
  | .lda, .memory (.indirectIndexedY nn) => some (.ldaIzY nn)
  | .ldx, .immediate nn => some (.ldxImm nn)
  | .ldx, .memory (.zeroPage nn) => some (.ldxZp nn)
  | .ldx, .memory (.zeroPageY nn) => some (.ldxZpY nn)
  | .ldx, .memory (.absolute w) => some (.ldxAbs w)
  | .ldx, .memory (.absoluteY w) => some (.ldxAbsY w)
  | .ldy, .immediate nn => some (.ldyImm nn)
  | .ldy, .memory (.zeroPage nn) => some (.ldyZp nn)
  | .ldy, .memory (.zeroPageX nn) => some (.ldyZpX nn)
  | .ldy, .memory (.absolute w) => some (.ldyAbs w)
  | .ldy, .memory (.absoluteX w) => some (.ldyAbsX w)
  | .adc, .immediate nn => some (.adcImm nn)
  | .adc, .memory (.zeroPage nn) => some (.adcZp nn)
  | .adc, .memory (.zeroPageX nn) => some (.adcZpX nn)
  | .adc, .memory (.absolute w) => some (.adcAbs w)
  | .adc, .memory (.absoluteX w) => some (.adcAbsX w)
  | .adc, .memory (.absoluteY w) => some (.adcAbsY w)
  | .adc, .memory (.indexedIndirectX nn) => some (.adcIzX nn)
  | .adc, .memory (.indirectIndexedY nn) => some (.adcIzY nn)
  | .sbc, .immediate nn => some (.sbcImm nn)
  | .sbc, .memory (.zeroPage nn) => some (.sbcZp nn)
  | .sbc, .memory (.zeroPageX nn) => some (.sbcZpX nn)
  | .sbc, .memory (.absolute w) => some (.sbcAbs w)
  | .sbc, .memory (.absoluteX w) => some (.sbcAbsX w)
  | .sbc, .memory (.absoluteY w) => some (.sbcAbsY w)
  | .sbc, .memory (.indexedIndirectX nn) => some (.sbcIzX nn)
  | .sbc, .memory (.indirectIndexedY nn) => some (.sbcIzY nn)
  | .and, .immediate nn => some (.andImm nn)
  | .and, .memory (.zeroPage nn) => some (.andZp nn)
  | .and, .memory (.zeroPageX nn) => some (.andZpX nn)
  | .and, .memory (.absolute w) => some (.andAbs w)
  | .and, .memory (.absoluteX w) => some (.andAbsX w)
  | .and, .memory (.absoluteY w) => some (.andAbsY w)
  | .and, .memory (.indexedIndirectX nn) => some (.andIzX nn)
  | .and, .memory (.indirectIndexedY nn) => some (.andIzY nn)
  | .ora, .immediate nn => some (.oraImm nn)
  | .ora, .memory (.zeroPage nn) => some (.oraZp nn)
  | .ora, .memory (.zeroPageX nn) => some (.oraZpX nn)
  | .ora, .memory (.absolute w) => some (.oraAbs w)
  | .ora, .memory (.absoluteX w) => some (.oraAbsX w)
  | .ora, .memory (.absoluteY w) => some (.oraAbsY w)
  | .ora, .memory (.indexedIndirectX nn) => some (.oraIzX nn)
  | .ora, .memory (.indirectIndexedY nn) => some (.oraIzY nn)
  | .eor, .immediate nn => some (.eorImm nn)
  | .eor, .memory (.zeroPage nn) => some (.eorZp nn)
  | .eor, .memory (.zeroPageX nn) => some (.eorZpX nn)
  | .eor, .memory (.absolute w) => some (.eorAbs w)
  | .eor, .memory (.absoluteX w) => some (.eorAbsX w)
  | .eor, .memory (.absoluteY w) => some (.eorAbsY w)
  | .eor, .memory (.indexedIndirectX nn) => some (.eorIzX nn)
  | .eor, .memory (.indirectIndexedY nn) => some (.eorIzY nn)
  | .cmp, .immediate nn => some (.cmpImm nn)
  | .cmp, .memory (.zeroPage nn) => some (.cmpZp nn)
  | .cmp, .memory (.zeroPageX nn) => some (.cmpZpX nn)
  | .cmp, .memory (.absolute w) => some (.cmpAbs w)
  | .cmp, .memory (.absoluteX w) => some (.cmpAbsX w)
  | .cmp, .memory (.absoluteY w) => some (.cmpAbsY w)
  | .cmp, .memory (.indexedIndirectX nn) => some (.cmpIzX nn)
  | .cmp, .memory (.indirectIndexedY nn) => some (.cmpIzY nn)
  | .cpx, .immediate nn => some (.cpxImm nn)
  | .cpx, .memory (.zeroPage nn) => some (.cpxZp nn)
  | .cpx, .memory (.absolute w) => some (.cpxAbs w)
  | .cpy, .immediate nn => some (.cpyImm nn)
  | .cpy, .memory (.zeroPage nn) => some (.cpyZp nn)
  | .cpy, .memory (.absolute w) => some (.cpyAbs w)
  | .bit, .memory (.zeroPage nn) => some (.bitZp nn)
  | .bit, .memory (.absolute w) => some (.bitAbs w)
  | .sta, .memory (.zeroPage nn) => some (.staZp nn)
  | .sta, .memory (.zeroPageX nn) => some (.staZpX nn)
  | .sta, .memory (.absolute w) => some (.staAbs w)
  | .sta, .memory (.absoluteX w) => some (.staAbsX w)
  | .sta, .memory (.absoluteY w) => some (.staAbsY w)
  | .sta, .memory (.indexedIndirectX nn) => some (.staIzX nn)
  | .sta, .memory (.indirectIndexedY nn) => some (.staIzY nn)
  | .stx, .memory (.zeroPage nn) => some (.stxZp nn)
  | .stx, .memory (.zeroPageY nn) => some (.stxZpY nn)
  | .stx, .memory (.absolute w) => some (.stxAbs w)
  | .sty, .memory (.zeroPage nn) => some (.styZp nn)
  | .sty, .memory (.zeroPageX nn) => some (.styZpX nn)
  | .sty, .memory (.absolute w) => some (.styAbs w)
  | .inc, .memory (.zeroPage nn) => some (.incZp nn)
  | .inc, .memory (.zeroPageX nn) => some (.incZpX nn)
  | .inc, .memory (.absolute w) => some (.incAbs w)
  | .inc, .memory (.absoluteX w) => some (.incAbsX w)
  | .dec, .memory (.zeroPage nn) => some (.decZp nn)
  | .dec, .memory (.zeroPageX nn) => some (.decZpX nn)
  | .dec, .memory (.absolute w) => some (.decAbs w)
  | .dec, .memory (.absoluteX w) => some (.decAbsX w)
  | .jmp, .memory (.absolute w) => some (.jmpAbs w)
  | .jmp, .memory (.indirect w) => some (.jmpInd w)
  | .asl, .accumulator => some .aslAcc
  | .asl, .memory (.zeroPage nn) => some (.aslZp nn)
  | .asl, .memory (.zeroPageX nn) => some (.aslZpX nn)
  | .asl, .memory (.absolute w) => some (.aslAbs w)
  | .asl, .memory (.absoluteX w) => some (.aslAbsX w)
  | .lsr, .accumulator => some .lsrAcc
  | .lsr, .memory (.zeroPage nn) => some (.lsrZp nn)
  | .lsr, .memory (.zeroPageX nn) => some (.lsrZpX nn)
  | .lsr, .memory (.absolute w) => some (.lsrAbs w)
  | .lsr, .memory (.absoluteX w) => some (.lsrAbsX w)
  | .rol, .accumulator => some .rolAcc
  | .rol, .memory (.zeroPage nn) => some (.rolZp nn)
  | .rol, .memory (.zeroPageX nn) => some (.rolZpX nn)
  | .rol, .memory (.absolute w) => some (.rolAbs w)
  | .rol, .memory (.absoluteX w) => some (.rolAbsX w)
  | .ror, .accumulator => some .rorAcc
  | .ror, .memory (.zeroPage nn) => some (.rorZp nn)
  | .ror, .memory (.zeroPageX nn) => some (.rorZpX nn)
  | .ror, .memory (.absolute w) => some (.rorAbs w)
  | .ror, .memory (.absoluteX w) => some (.rorAbsX w)
  | .bcc, .relative nn => some (.bcc nn)
  | .bcs, .relative nn => some (.bcs nn)
  | .beq, .relative nn => some (.beq nn)
  | .bne, .relative nn => some (.bne nn)
  | .bmi, .relative nn => some (.bmi nn)
  | .bpl, .relative nn => some (.bpl nn)
  | .bvc, .relative nn => some (.bvc nn)
  | .bvs, .relative nn => some (.bvs nn)
  | .pha, .implied => some .pha
  | .pla, .implied => some .pla
  | .php, .implied => some .php
  | .plp, .implied => some .plp
  | .jsr, .memory (.absolute w) => some (.jsr w)
  | .rts, .implied => some .rts
  | .brk, .implied => some .brk
  | .rti, .implied => some .rti
  | _, _ => none

/-! ## The default rows (R95, R103, R161) -/

/-- The rows `0x`: opcode, behavior, mode, size, cycles, page-cross extra, branch. -/
def tableRows0 : List TableRow := [
  ⟨0x00#8, .documented .brk, .implied, 1, 7, 0, false⟩,
  ⟨0x01#8, .documented .ora, .indexedIndirectX, 2, 6, 0, false⟩,
  ⟨0x05#8, .documented .ora, .zeroPage, 2, 3, 0, false⟩,
  ⟨0x06#8, .documented .asl, .zeroPage, 2, 5, 0, false⟩,
  ⟨0x08#8, .documented .php, .implied, 1, 3, 0, false⟩,
  ⟨0x09#8, .documented .ora, .immediate, 2, 2, 0, false⟩,
  ⟨0x0A#8, .documented .asl, .accumulator, 1, 2, 0, false⟩,
  ⟨0x0D#8, .documented .ora, .absolute, 3, 4, 0, false⟩,
  ⟨0x0E#8, .documented .asl, .absolute, 3, 6, 0, false⟩]

/-- The rows `1x`: opcode, behavior, mode, size, cycles, page-cross extra, branch. -/
def tableRows1 : List TableRow := [
  ⟨0x10#8, .documented .bpl, .relative, 2, 2, 0, true⟩,
  ⟨0x11#8, .documented .ora, .indirectIndexedY, 2, 5, 1, false⟩,
  ⟨0x15#8, .documented .ora, .zeroPageX, 2, 4, 0, false⟩,
  ⟨0x16#8, .documented .asl, .zeroPageX, 2, 6, 0, false⟩,
  ⟨0x18#8, .documented .clc, .implied, 1, 2, 0, false⟩,
  ⟨0x19#8, .documented .ora, .absoluteY, 3, 4, 1, false⟩,
  ⟨0x1D#8, .documented .ora, .absoluteX, 3, 4, 1, false⟩,
  ⟨0x1E#8, .documented .asl, .absoluteX, 3, 7, 0, false⟩]

/-- The rows `2x`: opcode, behavior, mode, size, cycles, page-cross extra, branch. -/
def tableRows2 : List TableRow := [
  ⟨0x20#8, .documented .jsr, .absolute, 3, 6, 0, false⟩,
  ⟨0x21#8, .documented .and, .indexedIndirectX, 2, 6, 0, false⟩,
  ⟨0x24#8, .documented .bit, .zeroPage, 2, 3, 0, false⟩,
  ⟨0x25#8, .documented .and, .zeroPage, 2, 3, 0, false⟩,
  ⟨0x26#8, .documented .rol, .zeroPage, 2, 5, 0, false⟩,
  ⟨0x28#8, .documented .plp, .implied, 1, 4, 0, false⟩,
  ⟨0x29#8, .documented .and, .immediate, 2, 2, 0, false⟩,
  ⟨0x2A#8, .documented .rol, .accumulator, 1, 2, 0, false⟩,
  ⟨0x2C#8, .documented .bit, .absolute, 3, 4, 0, false⟩,
  ⟨0x2D#8, .documented .and, .absolute, 3, 4, 0, false⟩,
  ⟨0x2E#8, .documented .rol, .absolute, 3, 6, 0, false⟩]

/-- The rows `3x`: opcode, behavior, mode, size, cycles, page-cross extra, branch. -/
def tableRows3 : List TableRow := [
  ⟨0x30#8, .documented .bmi, .relative, 2, 2, 0, true⟩,
  ⟨0x31#8, .documented .and, .indirectIndexedY, 2, 5, 1, false⟩,
  ⟨0x35#8, .documented .and, .zeroPageX, 2, 4, 0, false⟩,
  ⟨0x36#8, .documented .rol, .zeroPageX, 2, 6, 0, false⟩,
  ⟨0x38#8, .documented .sec, .implied, 1, 2, 0, false⟩,
  ⟨0x39#8, .documented .and, .absoluteY, 3, 4, 1, false⟩,
  ⟨0x3D#8, .documented .and, .absoluteX, 3, 4, 1, false⟩,
  ⟨0x3E#8, .documented .rol, .absoluteX, 3, 7, 0, false⟩]

/-- The rows `4x`: opcode, behavior, mode, size, cycles, page-cross extra, branch. -/
def tableRows4 : List TableRow := [
  ⟨0x40#8, .documented .rti, .implied, 1, 6, 0, false⟩,
  ⟨0x41#8, .documented .eor, .indexedIndirectX, 2, 6, 0, false⟩,
  ⟨0x45#8, .documented .eor, .zeroPage, 2, 3, 0, false⟩,
  ⟨0x46#8, .documented .lsr, .zeroPage, 2, 5, 0, false⟩,
  ⟨0x48#8, .documented .pha, .implied, 1, 3, 0, false⟩,
  ⟨0x49#8, .documented .eor, .immediate, 2, 2, 0, false⟩,
  ⟨0x4A#8, .documented .lsr, .accumulator, 1, 2, 0, false⟩,
  ⟨0x4C#8, .documented .jmp, .absolute, 3, 3, 0, false⟩,
  ⟨0x4D#8, .documented .eor, .absolute, 3, 4, 0, false⟩,
  ⟨0x4E#8, .documented .lsr, .absolute, 3, 6, 0, false⟩]

/-- The rows `5x`: opcode, behavior, mode, size, cycles, page-cross extra, branch. -/
def tableRows5 : List TableRow := [
  ⟨0x50#8, .documented .bvc, .relative, 2, 2, 0, true⟩,
  ⟨0x51#8, .documented .eor, .indirectIndexedY, 2, 5, 1, false⟩,
  ⟨0x55#8, .documented .eor, .zeroPageX, 2, 4, 0, false⟩,
  ⟨0x56#8, .documented .lsr, .zeroPageX, 2, 6, 0, false⟩,
  ⟨0x58#8, .documented .cli, .implied, 1, 2, 0, false⟩,
  ⟨0x59#8, .documented .eor, .absoluteY, 3, 4, 1, false⟩,
  ⟨0x5D#8, .documented .eor, .absoluteX, 3, 4, 1, false⟩,
  ⟨0x5E#8, .documented .lsr, .absoluteX, 3, 7, 0, false⟩]

/-- The rows `6x`: opcode, behavior, mode, size, cycles, page-cross extra, branch. -/
def tableRows6 : List TableRow := [
  ⟨0x60#8, .documented .rts, .implied, 1, 6, 0, false⟩,
  ⟨0x61#8, .documented .adc, .indexedIndirectX, 2, 6, 0, false⟩,
  ⟨0x65#8, .documented .adc, .zeroPage, 2, 3, 0, false⟩,
  ⟨0x66#8, .documented .ror, .zeroPage, 2, 5, 0, false⟩,
  ⟨0x68#8, .documented .pla, .implied, 1, 4, 0, false⟩,
  ⟨0x69#8, .documented .adc, .immediate, 2, 2, 0, false⟩,
  ⟨0x6A#8, .documented .ror, .accumulator, 1, 2, 0, false⟩,
  ⟨0x6C#8, .documented .jmp, .indirect, 3, 5, 0, false⟩,
  ⟨0x6D#8, .documented .adc, .absolute, 3, 4, 0, false⟩,
  ⟨0x6E#8, .documented .ror, .absolute, 3, 6, 0, false⟩]

/-- The rows `7x`: opcode, behavior, mode, size, cycles, page-cross extra, branch. -/
def tableRows7 : List TableRow := [
  ⟨0x70#8, .documented .bvs, .relative, 2, 2, 0, true⟩,
  ⟨0x71#8, .documented .adc, .indirectIndexedY, 2, 5, 1, false⟩,
  ⟨0x75#8, .documented .adc, .zeroPageX, 2, 4, 0, false⟩,
  ⟨0x76#8, .documented .ror, .zeroPageX, 2, 6, 0, false⟩,
  ⟨0x78#8, .documented .sei, .implied, 1, 2, 0, false⟩,
  ⟨0x79#8, .documented .adc, .absoluteY, 3, 4, 1, false⟩,
  ⟨0x7D#8, .documented .adc, .absoluteX, 3, 4, 1, false⟩,
  ⟨0x7E#8, .documented .ror, .absoluteX, 3, 7, 0, false⟩]

/-- The rows `8x`: opcode, behavior, mode, size, cycles, page-cross extra, branch. -/
def tableRows8 : List TableRow := [
  ⟨0x81#8, .documented .sta, .indexedIndirectX, 2, 6, 0, false⟩,
  ⟨0x84#8, .documented .sty, .zeroPage, 2, 3, 0, false⟩,
  ⟨0x85#8, .documented .sta, .zeroPage, 2, 3, 0, false⟩,
  ⟨0x86#8, .documented .stx, .zeroPage, 2, 3, 0, false⟩,
  ⟨0x88#8, .documented .dey, .implied, 1, 2, 0, false⟩,
  ⟨0x8A#8, .documented .txa, .implied, 1, 2, 0, false⟩,
  ⟨0x8C#8, .documented .sty, .absolute, 3, 4, 0, false⟩,
  ⟨0x8D#8, .documented .sta, .absolute, 3, 4, 0, false⟩,
  ⟨0x8E#8, .documented .stx, .absolute, 3, 4, 0, false⟩]

/-- The rows `9x`: opcode, behavior, mode, size, cycles, page-cross extra, branch. -/
def tableRows9 : List TableRow := [
  ⟨0x90#8, .documented .bcc, .relative, 2, 2, 0, true⟩,
  ⟨0x91#8, .documented .sta, .indirectIndexedY, 2, 6, 0, false⟩,
  ⟨0x94#8, .documented .sty, .zeroPageX, 2, 4, 0, false⟩,
  ⟨0x95#8, .documented .sta, .zeroPageX, 2, 4, 0, false⟩,
  ⟨0x96#8, .documented .stx, .zeroPageY, 2, 4, 0, false⟩,
  ⟨0x98#8, .documented .tya, .implied, 1, 2, 0, false⟩,
  ⟨0x99#8, .documented .sta, .absoluteY, 3, 5, 0, false⟩,
  ⟨0x9A#8, .documented .txs, .implied, 1, 2, 0, false⟩,
  ⟨0x9D#8, .documented .sta, .absoluteX, 3, 5, 0, false⟩]

/-- The rows `Ax`: opcode, behavior, mode, size, cycles, page-cross extra, branch. -/
def tableRowsA : List TableRow := [
  ⟨0xA0#8, .documented .ldy, .immediate, 2, 2, 0, false⟩,
  ⟨0xA1#8, .documented .lda, .indexedIndirectX, 2, 6, 0, false⟩,
  ⟨0xA2#8, .documented .ldx, .immediate, 2, 2, 0, false⟩,
  ⟨0xA4#8, .documented .ldy, .zeroPage, 2, 3, 0, false⟩,
  ⟨0xA5#8, .documented .lda, .zeroPage, 2, 3, 0, false⟩,
  ⟨0xA6#8, .documented .ldx, .zeroPage, 2, 3, 0, false⟩,
  ⟨0xA8#8, .documented .tay, .implied, 1, 2, 0, false⟩,
  ⟨0xA9#8, .documented .lda, .immediate, 2, 2, 0, false⟩,
  ⟨0xAA#8, .documented .tax, .implied, 1, 2, 0, false⟩,
  ⟨0xAC#8, .documented .ldy, .absolute, 3, 4, 0, false⟩,
  ⟨0xAD#8, .documented .lda, .absolute, 3, 4, 0, false⟩,
  ⟨0xAE#8, .documented .ldx, .absolute, 3, 4, 0, false⟩]

/-- The rows `Bx`: opcode, behavior, mode, size, cycles, page-cross extra, branch. -/
def tableRowsB : List TableRow := [
  ⟨0xB0#8, .documented .bcs, .relative, 2, 2, 0, true⟩,
  ⟨0xB1#8, .documented .lda, .indirectIndexedY, 2, 5, 1, false⟩,
  ⟨0xB4#8, .documented .ldy, .zeroPageX, 2, 4, 0, false⟩,
  ⟨0xB5#8, .documented .lda, .zeroPageX, 2, 4, 0, false⟩,
  ⟨0xB6#8, .documented .ldx, .zeroPageY, 2, 4, 0, false⟩,
  ⟨0xB8#8, .documented .clv, .implied, 1, 2, 0, false⟩,
  ⟨0xB9#8, .documented .lda, .absoluteY, 3, 4, 1, false⟩,
  ⟨0xBA#8, .documented .tsx, .implied, 1, 2, 0, false⟩,
  ⟨0xBC#8, .documented .ldy, .absoluteX, 3, 4, 1, false⟩,
  ⟨0xBD#8, .documented .lda, .absoluteX, 3, 4, 1, false⟩,
  ⟨0xBE#8, .documented .ldx, .absoluteY, 3, 4, 1, false⟩]

/-- The rows `Cx`: opcode, behavior, mode, size, cycles, page-cross extra, branch. -/
def tableRowsC : List TableRow := [
  ⟨0xC0#8, .documented .cpy, .immediate, 2, 2, 0, false⟩,
  ⟨0xC1#8, .documented .cmp, .indexedIndirectX, 2, 6, 0, false⟩,
  ⟨0xC4#8, .documented .cpy, .zeroPage, 2, 3, 0, false⟩,
  ⟨0xC5#8, .documented .cmp, .zeroPage, 2, 3, 0, false⟩,
  ⟨0xC6#8, .documented .dec, .zeroPage, 2, 5, 0, false⟩,
  ⟨0xC8#8, .documented .iny, .implied, 1, 2, 0, false⟩,
  ⟨0xC9#8, .documented .cmp, .immediate, 2, 2, 0, false⟩,
  ⟨0xCA#8, .documented .dex, .implied, 1, 2, 0, false⟩,
  ⟨0xCC#8, .documented .cpy, .absolute, 3, 4, 0, false⟩,
  ⟨0xCD#8, .documented .cmp, .absolute, 3, 4, 0, false⟩,
  ⟨0xCE#8, .documented .dec, .absolute, 3, 6, 0, false⟩]

/-- The rows `Dx`: opcode, behavior, mode, size, cycles, page-cross extra, branch. -/
def tableRowsD : List TableRow := [
  ⟨0xD0#8, .documented .bne, .relative, 2, 2, 0, true⟩,
  ⟨0xD1#8, .documented .cmp, .indirectIndexedY, 2, 5, 1, false⟩,
  ⟨0xD5#8, .documented .cmp, .zeroPageX, 2, 4, 0, false⟩,
  ⟨0xD6#8, .documented .dec, .zeroPageX, 2, 6, 0, false⟩,
  ⟨0xD8#8, .documented .cld, .implied, 1, 2, 0, false⟩,
  ⟨0xD9#8, .documented .cmp, .absoluteY, 3, 4, 1, false⟩,
  ⟨0xDD#8, .documented .cmp, .absoluteX, 3, 4, 1, false⟩,
  ⟨0xDE#8, .documented .dec, .absoluteX, 3, 7, 0, false⟩]

/-- The rows `Ex`: opcode, behavior, mode, size, cycles, page-cross extra, branch. -/
def tableRowsE : List TableRow := [
  ⟨0xE0#8, .documented .cpx, .immediate, 2, 2, 0, false⟩,
  ⟨0xE1#8, .documented .sbc, .indexedIndirectX, 2, 6, 0, false⟩,
  ⟨0xE4#8, .documented .cpx, .zeroPage, 2, 3, 0, false⟩,
  ⟨0xE5#8, .documented .sbc, .zeroPage, 2, 3, 0, false⟩,
  ⟨0xE6#8, .documented .inc, .zeroPage, 2, 5, 0, false⟩,
  ⟨0xE8#8, .documented .inx, .implied, 1, 2, 0, false⟩,
  ⟨0xE9#8, .documented .sbc, .immediate, 2, 2, 0, false⟩,
  ⟨0xEA#8, .documented .nop, .implied, 1, 2, 0, false⟩,
  ⟨0xEC#8, .documented .cpx, .absolute, 3, 4, 0, false⟩,
  ⟨0xED#8, .documented .sbc, .absolute, 3, 4, 0, false⟩,
  ⟨0xEE#8, .documented .inc, .absolute, 3, 6, 0, false⟩]

/-- The rows `Fx`: opcode, behavior, mode, size, cycles, page-cross extra, branch. -/
def tableRowsF : List TableRow := [
  ⟨0xF0#8, .documented .beq, .relative, 2, 2, 0, true⟩,
  ⟨0xF1#8, .documented .sbc, .indirectIndexedY, 2, 5, 1, false⟩,
  ⟨0xF5#8, .documented .sbc, .zeroPageX, 2, 4, 0, false⟩,
  ⟨0xF6#8, .documented .inc, .zeroPageX, 2, 6, 0, false⟩,
  ⟨0xF8#8, .documented .sed, .implied, 1, 2, 0, false⟩,
  ⟨0xF9#8, .documented .sbc, .absoluteY, 3, 4, 1, false⟩,
  ⟨0xFD#8, .documented .sbc, .absoluteX, 3, 4, 1, false⟩,
  ⟨0xFE#8, .documented .inc, .absoluteX, 3, 7, 0, false⟩]

/-- The default `INSTRUCTION_TABLE` with the default `CYCLES` columns: 151 rows. -/
def defaultTable : List TableRow :=
  tableRows0 ++ tableRows1 ++ tableRows2 ++ tableRows3 ++
  tableRows4 ++ tableRows5 ++ tableRows6 ++ tableRows7 ++
  tableRows8 ++ tableRows9 ++ tableRowsA ++ tableRowsB ++
  tableRowsC ++ tableRowsD ++ tableRowsE ++ tableRowsF

/-- The row of an opcode byte, if it is registered (R94: the table is keyed by opcode byte). -/
def findRow (table : List TableRow) (opcode : Byte) : Option TableRow :=
  table.find? (fun row => row.opcode == opcode)

/-- R94: "the table must contain no duplicate opcode byte". -/
def tableUnique : List TableRow → Bool
  | [] => true
  | row :: rest => (findRow rest row.opcode).isNone && tableUnique rest

/-- The default parameters of R8. -/
def Config.default : Config where
  memSize := 65536
  numConfigs := 1
  table := defaultTable
  branchTakenCycles := 1
  branchPageCycles := 1
  zpPtrWrap := .linear
  romWritePolicy := .ignore
  nmiAck := .clearOnService
  intCycles := 7
  pollPoint := .beforeStep
  resetValues := ⟨none, none, none, none, none⟩

end Sys2Proof
end

