-- ==== Sys2Proof/Machine/State.lean ====
section
/-!
DEFINITION. The state of one machine instance (10_state.md R20) as plain data, with the host's
pending operations and the answers of its hooks as lists (60_exceptions.md R340), the reasons a
step can stop, and the state after reset (R41, R76, R370, R373).
-/

namespace Sys2Proof.Machine

/-! ## Memory (20_memory.md R50) -/

/-- What backs one direction of a mapped address range (R50, R56 to R58, R62, R66). -/
inductive Backing where
  /-- a backing byte array (RAM, ROM or a register cell): address `base + i` is byte `origin + i` of
  the backing bytes -/
  | bytes (origin : Nat)
  /-- the active bank of a segment (R62) -/
  | segment (id : Nat)
  /-- a hook function of the platform: what it returns and does is the platform's (R66) -/
  | device (port : Nat)
  deriving DecidableEq, Repr

/-- One installed mapping: in configuration `config` it replaces the hooks of the directions it
names for the addresses `base .. base + length - 1` (R56 to R58). -/
structure Mapping where
  config : Nat
  base : Nat
  length : Nat
  rd : Option Backing
  wr : Option Backing
  deriving DecidableEq, Repr

/-- R62: a named region of fixed size that owns interchangeable banks; `banks` holds the place of
each bank's first byte among the backing bytes, and exactly one bank is active. -/
structure Segment where
  name : String
  origin : Nat
  size : Nat
  banks : List Nat
  active : Nat
  deriving DecidableEq, Repr

/-- The memory state of R50. `cells` is the list of backing bytes that differ from
`Memory.blank`, by rising index; `maps` is newest first. -/
structure Memory where
  cells : List Host.Cell
  maps : List Mapping
  segments : List Segment
  /-- the current configuration index (10_state.md R38) -/
  cfg : Nat
  deriving DecidableEq, Repr

/-- A backing byte array: the place of its first byte among the backing bytes, and its size (R50). -/
structure BackingArray where
  origin : Nat
  size : Nat
  deriving DecidableEq, Repr

/-- R58: the directions a register or device mapping replaces. -/
inductive RegisterMode where
  | read
  | write
  | readWrite
  deriving DecidableEq, Repr

/-! ## Status flags (10_state.md R24) -/

/-- The eight flags of `P` by their short names. -/
inductive Flag where
  /-- Carry, bit 0 -/
  | c
  /-- Zero, bit 1 -/
  | z
  /-- InterruptDisable, bit 2 -/
  | i
  /-- Decimal, bit 3 -/
  | d
  /-- Break, bit 4 -/
  | b
  /-- Unused, bit 5 -/
  | u
  /-- Overflow, bit 6 -/
  | v
  /-- Negative, bit 7 -/
  | n
  deriving DecidableEq, Repr

/-! ## Interrupt registry, counters, options (10_state.md R35 to R37) -/

/-- One IRQ source (R35): its name and its auto-acknowledge flag. -/
structure IrqSource where
  name : String
  autoAck : Bool
  deriving DecidableEq, Repr

/-- R36: a record of five fields, kept per call and per machine lifetime. -/
structure ExecutionState where
  cyclesConsumed : Nat
  instructionsExecuted : Nat
  unknownOpcodeCount : Nat
  lastOpcode : Option Byte
  pcBeforeLastOpcode : Option Word
  deriving DecidableEq, Repr

/-- R36: "created with all counters 0 and both optional fields none". -/
def ExecutionState.zero : ExecutionState := ⟨0, 0, 0, none, none⟩

/-- R37: the configuration snapshot passed to a call of the run loop. -/
structure ExecutionOptions where
  cycleBudget : Option Nat
  maxNumberOfInstructions : Option Nat
  stopAtPC : Option Word
  stopAfterInstructionAtPC : Option Word
  stopAfterOpcode : Option Byte
  stopAfterOpcodes : List Byte
  unknownInstructionIsFatal : Bool
  deriving DecidableEq, Repr

/-- Options with no stop condition and the default unknown-opcode policy (R37). -/
def ExecutionOptions.none : ExecutionOptions :=
  ⟨Option.none, Option.none, Option.none, Option.none, Option.none, [], false⟩

/-- The six stop conditions of 60_exceptions.md R335. -/
inductive StopReason where
  | cycleBudget
  | instructionBudget
  | pcReached
  | instructionAtPcExecuted
  | opcodeExecuted
  | opcodeInSet
  deriving DecidableEq, Repr

/-- The three kinds of observer of 60_exceptions.md R341. -/
inductive ObserverKind where
  | beforeInstruction
  | afterInstruction
  | unknownOpcode
  deriving DecidableEq, Repr

/-- R341: zero or more observers may be registered for each kind; they fire in registration order,
so their number is all a firing depends on. -/
structure Observers where
  before : Nat
  after : Nat
  unknown : Nat
  deriving DecidableEq, Repr

/-! ## The host (60_exceptions.md R340 to R344) -/

/-- What a host may do inside a hook, and between calls (R340, R343): change backing bytes,
mappings, the configuration index, a segment's bank and the interrupt registry. A hook never writes
the processor registers, the counters, the options or the instruction table (R343). In the map
operations `config = none` names the current configuration (D23). -/
inductive HostAction where
  /-- `MapRAM(base, backing[, offset, length])` (R56) -/
  | mapRam (config : Option Nat) (base : Nat) (backing : BackingArray) (offset : Nat) (length : Option Nat)
  /-- `MapROM(base, backing)` (R57) -/
  | mapRom (config : Option Nat) (base : Nat) (backing : BackingArray)
  /-- `MapRegister(address, cell, mode)` (R58) -/
  | mapRegister (config : Option Nat) (address : Nat) (cell : Nat) (mode : RegisterMode)
  /-- a peripheral's own hook functions over a range (R58, last sentence) -/
  | mapDevice (config : Option Nat) (base : Nat) (length : Nat) (port : Nat) (mode : RegisterMode)
  /-- a segment with its banks (R62); bank 0 is active first, which is the model's choice (DESIGN
  CHOICE, log 30) -/
  | mapSegment (config : Option Nat) (name : String) (origin : Nat) (size : Nat) (banks : List Nat)
  /-- sets a segment's active bank (R62) -/
  | selectBank (segment : Nat) (bank : Nat)
  /-- `SetConfiguration(index)` (R60) -/
  | setConfiguration (index : Nat)
  /-- writes a backing byte, past the mapping (R343: "write memory through … backing arrays") -/
  | setByte (index : Nat) (value : Byte)
  /-- reads through the mapping (R343: "read everything"); the byte is kept in `hostBytes` -/
  | memRead (addr : Word)
  /-- writes through the mapping (R343: "write memory through the mapping API") -/
  | memWrite (addr : Word) (value : Byte)
  /-- `AddIrqSource(name, autoAck)` (R310) -/
  | addIrqSource (name : String) (autoAck : Bool)
  /-- `RemoveIrqSource(name)` (R311) -/
  | removeIrqSource (name : String)
  /-- `AddNmiSource(name)` (R312) -/
  | addNmiSource (name : String)
  /-- `RemoveNmiSource(name)` (R312) -/
  | removeNmiSource (name : String)
  deriving DecidableEq, Repr

/-- One invocation of a function of the host with what the host receives (R340): a device's read-hook
or write-hook, named by its port, with the address accessed (a hook function is installed per
address, 20_memory.md R50) and, for a write, the byte; or an observer (R341). -/
inductive HookCall where
  | read (port : Nat) (addr : Word)
  | write (port : Nat) (addr : Word) (value : Byte)
  | beforeInstruction
  | afterInstruction
  | unknownOpcode (opcode : Byte)
  deriving DecidableEq, Repr

/-- What the host answers to one invocation and does in it (R340). `byte` is what a read-hook returns;
write-hooks and observers return nothing. -/
structure HookAnswer where
  byte : Byte
  actions : List HostAction
  deriving DecidableEq, Repr

/-- How the host takes one invocation: its answer may depend on what it receives. The listed cases
are looked up in order; `otherwise` stands for all others (log 6). -/
structure HookReply where
  cases : List (HookCall × HookAnswer)
  otherwise : HookAnswer
  deriving DecidableEq, Repr

/-- What a host may do between two calls of the run loop (10_state.md R40, R340). -/
inductive HostOp where
  | act (action : HostAction)
  | setPc (value : Word)
  | setSp (value : Byte)
  | setA (value : Byte)
  | setX (value : Byte)
  | setY (value : Byte)
  | setP (value : Byte)
  | setFlag (flag : Flag) (value : Bool)
  | read (addr : Word)
  | write (addr : Word) (value : Byte)
  | readWord (addr : Word)
  | writeWord (addr : Word) (value : Word)
  /-- `BulkRead(a, n)` (20_memory.md R61) -/
  | bulkRead (addr : Nat) (count : Nat)
  /-- `BulkWrite(a, bytes)` (R61) -/
  | bulkWrite (addr : Nat) (bytes : List Byte)
  | addObserver (kind : ObserverKind)
  /-- `Reset(start)` (70_reset_and_hazards.md R370) -/
  | reset (start : Option Word)
  /-- `Run(options)` (60_exceptions.md R330) -/
  | run (options : ExecutionOptions)
  deriving DecidableEq, Repr

/-! ## What a behavior reports (10_state.md R39, 40_step_addressing_flags.md R160) -/

/-- The model's own transient record, cleared before each instruction: whether addressing crossed a
page (R125), and for a branch whether it was taken and whether its target is on another page (R250). -/
structure StepEvents where
  crossed : Bool
  branchTaken : Bool
  branchOtherPage : Bool
  deriving DecidableEq, Repr

def StepEvents.none : StepEvents := ⟨false, false, false⟩

/-- The step result of R124: the opcode byte, the cycle count, whether the byte was unknown. -/
structure StepResult where
  opcode : Byte
  cycles : Nat
  unknown : Bool
  deriving DecidableEq, Repr

/-! ## The state -/

/-- All state of one machine instance (10_state.md R20), its parameters (R42), and the model's own
fields `events`, `hostQueue`, `hostBytes`, `replies`, `hookCalls`, `freeCount` (INVENTORY.md,
State). `hookCalls` is what the host has received, newest first; `hostBytes` what the host's last read
returned to it. -/
structure State where
  config : Config
  pc : Word
  sp : Byte
  a : Byte
  x : Byte
  y : Byte
  p : Byte
  mem : Memory
  irq : List IrqSource
  nmi : List String
  call : ExecutionState
  lifetime : ExecutionState
  options : ExecutionOptions
  inCall : Bool
  stopReasons : List StopReason
  observers : Observers
  events : StepEvents
  hostQueue : List HostOp
  hostBytes : List Byte
  replies : List HookReply
  hookCalls : List HookCall
  freeCount : Nat
  deriving DecidableEq, Repr

/-! ## Reasons to stop (60_exceptions.md R301, R304) -/

/-- The direction of a faulting access (R301). -/
inductive AccessKind where
  | read
  | write
  deriving DecidableEq, Repr

/-- The reasons of `Fault.Configuration` (R304). -/
inductive ConfigError where
  | duplicateOpcode
  | zeroSizedMemory
  | memoryTooLarge
  | noConfigurations
  | mappingBeyondMemory
  | mappingBeyondBacking
  | invalidMemoryConfiguration
  | bankOutOfRange
  deriving DecidableEq, Repr

/-- The faults of R301. The run ends; `left` is the state left behind, with every write made before
the fault (R303): "not the end state of any program" (R301, log 14). -/
inductive Fault where
  /-- Raised by `read` and `write` at an address without the hook the access needs, or at or above
  MEM_SIZE (20_memory.md R52, R53). The spec's own fault: safe. -/
  | invalidMemoryAccess (addr : Nat) (kind : AccessKind) (pc : Word) (left : State)
  /-- Raised by the run loop after an unknown opcode when UnknownInstructionIsFatal is set (R302,
  R334), after the step's fold. The spec's own fault: safe. -/
  | unknownOpcode (opcode : Byte) (pc : Word) (left : State)
  /-- Raised by host operations, between calls or inside a hook (R304). The spec's own fault; for
  `memoryTooLarge` and `mappingBeyondBacking` see log 9: safe. -/
  | configuration (reason : ConfigError) (left : State)
  deriving DecidableEq, Repr

/-- The state a fault leaves behind (R303). -/
def Fault.left : Fault → State
  | .invalidMemoryAccess _ _ _ t => t
  | .unknownOpcode _ _ t => t
  | .configuration _ t => t

/-- Why the model gives a step no meaning. -/
inductive Refusal where
  /-- Raised by `exec` for an instruction without a meaning yet: safe. No arm of `exec` uses it. -/
  | notModelled (mnemonic : String)
  /-- Raised by the step for an opcode byte that a platform registered with a behavior of its own:
  "this spec says nothing of their behavior" (30_encoding.md R99, log 5): safe. -/
  | unspecifiedOpcode (opcode : Byte) (pc : Word)
  /-- Raised by the step for an opcode byte that a platform registered with a behavior that needs a
  value, an address or the accumulator in a mode that gives none (40_step_addressing_flags.md R123;
  log 5): safe. -/
  | missingOperand (opcode : Byte) (pc : Word)
  deriving DecidableEq, Repr

/-- How a step ends. -/
abbrev Result := Host.Outcome State Fault Refusal

/-- An operation of the machine: from a state to a value and a state, or a fault (R13). All effects
take place in the order written (R11). -/
abbrev Op (α : Type) := StateT State (Except Fault) α

/-! ## Reset -/

/-- The default platform (20_memory.md R76): one zero-filled RAM array over the whole space. -/
def Memory.flatRam : Memory where
  cells := []
  maps := [{ config := 0, base := 0, length := 65536, rd := some (.bytes 0), wr := some (.bytes 0) }]
  segments := []
  cfg := 0

/-- The machine right after reset: the boot sequence of 70_reset_and_hazards.md R373 on the default
platform. `pc` is the word at `$FFFC` (R370), zero on zero-filled RAM. A, X, Y, SP and P are the
values of log 1; the call in progress is log 3. -/
def State.reset : State where
  config := Config.default
  pc := 0x0000#16
  sp := 0xFF#8
  a := 0x00#8
  x := 0x00#8
  y := 0x00#8
  p := 0x00#8
  mem := Memory.flatRam
  irq := []
  nmi := []
  call := ExecutionState.zero
  lifetime := ExecutionState.zero
  options := ExecutionOptions.none
  inCall := true
  stopReasons := []
  observers := ⟨0, 0, 0⟩
  events := StepEvents.none
  hostQueue := []
  hostBytes := []
  replies := []
  hookCalls := []
  freeCount := 0

end Sys2Proof.Machine
end

