-- ==== Sys2Proof/Machine/Flags.lean ====
section
/-!
DEFINITION. The status register's bits (10_state.md R24) and the flag helpers
(40_step_addressing_flags.md R140 to R148): pure functions of bytes; the instruction rules say where
the results go.
-/

namespace Sys2Proof.Machine

/-! ## Bits of P (R24) -/

/-- The bit position of a flag. -/
def Flag.bit : Flag → Nat
  | .c => 0
  | .z => 1
  | .i => 2
  | .d => 3
  | .b => 4
  | .u => 5
  | .v => 6
  | .n => 7

/-- The mask of a flag. -/
def Flag.mask : Flag → Byte
  | .c => 0x01#8
  | .z => 0x02#8
  | .i => 0x04#8
  | .d => 0x08#8
  | .b => 0x10#8
  | .u => 0x20#8
  | .v => 0x40#8
  | .n => 0x80#8

/-- The flag of a status byte. -/
def getFlag (f : Flag) (p : Byte) : Bool := p.getLsbD f.bit

/-- The status byte with one flag written. -/
def putFlag (f : Flag) (value : Bool) (p : Byte) : Byte :=
  if value then p ||| f.mask else p &&& ~~~f.mask

/-! ## Updates of the registers -/

def State.setA (s : State) (v : Byte) : State := { s with a := v }
def State.setX (s : State) (v : Byte) : State := { s with x := v }
def State.setY (s : State) (v : Byte) : State := { s with y := v }
def State.setSp (s : State) (v : Byte) : State := { s with sp := v }
def State.setP (s : State) (v : Byte) : State := { s with p := v }
def State.setPc (s : State) (v : Word) : State := { s with pc := v }
def State.setEvents (s : State) (v : StepEvents) : State := { s with events := v }

/-- `P.<f>` (00_scope.md R11). -/
def State.flag (s : State) (f : Flag) : Bool := getFlag f s.p

/-- `P.<f> <- value` (00_scope.md R11). -/
def State.putFlag (s : State) (f : Flag) (value : Bool) : State :=
  s.setP (Sys2Proof.Machine.putFlag f value s.p)

/-! ## Zero and Negative (R140) -/

/-- `P.Z <- (v == 0)`; `P.N <- v[7]`, on a status byte. -/
def withZN (v p : Byte) : Byte := putFlag .n v.msb (putFlag .z (v == 0x00#8) p)

/-- `SetZN(v)`. -/
def State.setZN (s : State) (v : Byte) : State := s.setP (withZN v s.p)

/-! ## Add and subtract (R141, R142) -/

/-- The result of `AddWithCarry`: the byte and the four flags. -/
structure AddResult where
  value : Byte
  carry : Bool
  zero : Bool
  negative : Bool
  overflow : Bool
  deriving DecidableEq, Repr

/-- R141: from the raw 9-bit sum; the Decimal flag is no input (D3). -/
def addWithCarry (a b : Byte) (cin : Bool) : AddResult :=
  let raw := a.toNat + b.toNat + cin.toNat
  let r := BitVec.ofNat 8 raw
  { value := r
    carry := decide (256 ≤ raw)
    zero := r == 0x00#8
    negative := r.msb
    overflow := a.msb == b.msb && r.msb != a.msb }

/-- R142: `AddWithCarry(a, ~b, cin)`. -/
def subtractWithCarry (a b : Byte) (cin : Bool) : AddResult := addWithCarry a (~~~b) cin

/-- The status byte after ADC or SBC: C, Z, N, V from the result. -/
def AddResult.status (r : AddResult) (p : Byte) : Byte :=
  putFlag .v r.overflow (putFlag .n r.negative (putFlag .z r.zero (putFlag .c r.carry p)))

/-! ## Compare (R143) -/

/-- The flags of `Compare`. -/
structure CompareResult where
  carry : Bool
  zero : Bool
  negative : Bool
  deriving DecidableEq, Repr

/-- R143: unsigned. -/
def compareBytes (reg v : Byte) : CompareResult where
  carry := decide (v.toNat ≤ reg.toNat)
  zero := reg == v
  negative := (reg - v).msb

/-- The status byte after a compare: C, Z, N. -/
def CompareResult.status (r : CompareResult) (p : Byte) : Byte :=
  putFlag .n r.negative (putFlag .z r.zero (putFlag .c r.carry p))

/-! ## Shifts and rotates (R144 to R147) -/

/-- The shifted byte and the bit shifted out; Z and N are those of the byte. -/
structure ShiftResult where
  value : Byte
  carry : Bool
  deriving DecidableEq, Repr

/-- R144, ASL: `r = (v * 2) mod 256`, `C = v[7]`. The carry in is not used. -/
def shiftLeft (v : Byte) (_cin : Bool) : ShiftResult where
  value := BitVec.ofNat 8 (v.toNat * 2)
  carry := v.getLsbD 7

/-- R145, LSR: `r = v div 2`, `C = v[0]`. The carry in is not used. -/
def shiftRight (v : Byte) (_cin : Bool) : ShiftResult where
  value := BitVec.ofNat 8 (v.toNat / 2)
  carry := v.getLsbD 0

/-- R146, ROL: `r = ((v * 2) mod 256) + cin`, `C = v[7]`. -/
def rotateLeft (v : Byte) (cin : Bool) : ShiftResult where
  value := BitVec.ofNat 8 (v.toNat * 2 % 256 + cin.toNat)
  carry := v.getLsbD 7

/-- R147, ROR: `r = (v div 2) + cin * 128`, `C = v[0]`. -/
def rotateRight (v : Byte) (cin : Bool) : ShiftResult where
  value := BitVec.ofNat 8 (v.toNat / 2 + cin.toNat * 128)
  carry := v.getLsbD 0

/-- The status byte after a shift: C the bit shifted out, Z and N from the byte. -/
def ShiftResult.status (r : ShiftResult) (p : Byte) : Byte := withZN r.value (putFlag .c r.carry p)

/-! ## Bit test (R148) -/

/-- The status byte after BIT: Z from `a & m`, V and N from bits 6 and 7 of `m`. -/
def bitTest (a m p : Byte) : Byte :=
  putFlag .n (m.getLsbD 7) (putFlag .v (m.getLsbD 6) (putFlag .z ((a &&& m) == 0x00#8) p))

end Sys2Proof.Machine
end

