-- ==== Sys2Proof/Machine/Memory.lean ====
section
/-!
DEFINITION. The backing bytes in canonical form, and the mappings over them (20_memory.md R50, R51,
R56 to R60, R62): which backing byte or device an address stands for, and how mappings, segments and
the configuration index change.
-/

namespace Sys2Proof.Machine

/-! ## Backing bytes -/

/-- What a backing byte that is not listed holds (20_memory.md R76, log 2). -/
def Memory.blank : Byte := 0x00#8

/-- The byte at an index of the backing bytes. -/
def cellGet : List Host.Cell → Nat → Byte
  | [], _ => Memory.blank
  | (k, v) :: rest, i => if k == i then v else cellGet rest i

/-- Puts a byte at an index and keeps the canonical form: writing the blank value unlists the index. -/
def cellSet : List Host.Cell → Nat → Byte → List Host.Cell
  | [], i, v => if v == Memory.blank then [] else [(i, v)]
  | (k, w) :: rest, i, v =>
    if i < k then
      if v == Memory.blank then (k, w) :: rest else (i, v) :: (k, w) :: rest
    else if i == k then
      if v == Memory.blank then rest else (k, v) :: rest
    else (k, w) :: cellSet rest i v

/-- The indexes rise strictly from `low` on and no listed byte is blank. -/
def cellsFrom : Nat → List Host.Cell → Bool
  | _, [] => true
  | low, (k, v) :: rest => decide (low ≤ k) && v != Memory.blank && cellsFrom (k + 1) rest

/-- The canonical form of a memory: strictly rising indexes, no blank byte listed. -/
def Memory.wf (m : Memory) : Bool := cellsFrom 0 m.cells

/-- The backing byte at an index. -/
def Memory.byteAt (m : Memory) (index : Nat) : Byte := cellGet m.cells index

/-- Stores a backing byte. -/
def Memory.store (m : Memory) (index : Nat) (v : Byte) : Memory :=
  { m with cells := cellSet m.cells index v }

/-! ## Mappings (R50, R51) -/

/-- What a hook acts on: a backing byte, or a device of the platform (R66). -/
inductive Slot where
  | byte (index : Nat)
  | device (port : Nat)
  deriving DecidableEq, Repr

/-- R62: the backing index of offset `off` in the active bank of a segment. -/
def Memory.segmentIndex (m : Memory) (id off : Nat) : Option Nat :=
  match m.segments[id]? with
  | none => none
  | some seg =>
    match seg.banks[seg.active]? with
    | none => none
    | some bank => some (bank + off)

/-- The slot a backing gives at offset `off` from its mapping's base. -/
def Backing.slot (m : Memory) (off : Nat) : Backing → Option Slot
  | .bytes origin => some (.byte (origin + off))
  | .segment id => (m.segmentIndex id off).map Slot.byte
  | .device port => some (.device port)

/-- The mapping applies to address `a` in configuration `cfg`. -/
def Mapping.covers (r : Mapping) (cfg a : Nat) : Bool :=
  r.config == cfg && decide (r.base ≤ a) && decide (a < r.base + r.length)

/-- `map[cfg][a].rd`: the newest mapping that names a read-hook for `a` (R56 to R58 replace the hooks
they name and leave the others). -/
def Memory.readSlot (m : Memory) (a : Nat) : Option Slot :=
  match m.maps.find? (fun r => r.covers m.cfg a && r.rd.isSome) with
  | none => none
  | some r => r.rd.bind (Backing.slot m (a - r.base))

/-- `map[cfg][a].wr`. -/
def Memory.writeSlot (m : Memory) (a : Nat) : Option Slot :=
  match m.maps.find? (fun r => r.covers m.cfg a && r.wr.isSome) with
  | none => none
  | some r => r.wr.bind (Backing.slot m (a - r.base))

/-- Installs a mapping over what was there. -/
def Memory.install (m : Memory) (r : Mapping) : Memory := { m with maps := r :: m.maps }

/-- R62: one more segment, its hooks over `[origin, origin + size)` in one configuration. -/
def Memory.addSegment (m : Memory) (config : Nat) (g : Segment) : Memory :=
  ({ m with segments := m.segments ++ [g] }).install
    { config := config, base := g.origin, length := g.size,
      rd := some (.segment m.segments.length), wr := some (.segment m.segments.length) }

/-! ## The state's view of an address -/

/-- The read-hook of an address: none at or above MEM_SIZE (R52, D30). -/
def State.readSlot (s : State) (a : Word) : Option Slot :=
  if a.toNat < s.config.memSize then s.mem.readSlot a.toNat else none

/-- The write-hook of an address: none at or above MEM_SIZE (R53, D30). -/
def State.writeSlot (s : State) (a : Word) : Option Slot :=
  if a.toNat < s.config.memSize then s.mem.writeSlot a.toNat else none

/-- The byte at an address that reads from a backing byte; `none` where there is no read-hook or the
hook is a device. Looking changes nothing. -/
def State.peek (s : State) (a : Word) : Option Byte :=
  match s.readSlot a with
  | some (.byte k) => some (s.mem.byteAt k)
  | _ => none

/-- Stops with a fault that carries the state as it is now (00_scope.md R13, 60_exceptions.md R303). -/
def raise {α : Type} (f : State → Fault) : Op α := fun s => .error (f s)

/-- The state with another memory. -/
def State.setMem (s : State) (m : Memory) : State := { s with mem := m }

/-- Changes the memory part of the state. -/
def modifyMem (f : Memory → Memory) : Op Unit := modify fun s => s.setMem (f s.mem)

/-! ## Mapping operations (R56 to R60, R62)

Each checks its arguments first and then makes one change, so that an operation that raises a
configuration error has no effect (60_exceptions.md R304). Which reason is raised where several hold
is the model's choice (DESIGN CHOICE, log 34). -/

/-- R60: an index at or above NUM_CONFIGS is a configuration error. -/
def checkConfiguration (index : Nat) : Op Unit := do
  let s ← get
  if index < s.config.numConfigs then pure ()
  else raise (.configuration .invalidMemoryConfiguration)

/-- D23: the target configuration, by default the current one. -/
def targetConfiguration : Option Nat → Op Nat
  | none => do
    let s ← get
    pure s.mem.cfg
  | some index => do
    checkConfiguration index
    pure index

/-- Replaces the named hooks of `length` addresses from `base` on; "`base + length > MEM_SIZE` is a
configuration error" (R56). -/
def installRange (config : Option Nat) (base length : Nat) (rd wr : Option Backing) : Op Unit := do
  let c ← targetConfiguration config
  let s ← get
  if base + length ≤ s.config.memSize then
    modifyMem fun m => m.install { config := c, base := base, length := length, rd := rd, wr := wr }
  else raise (.configuration .mappingBeyondMemory)

/-- `MapRAM(base, backing[, offset, length])` (R56), by default to the end of the array. A range
that leaves the array is refused as a configuration error (log 9). -/
def mapRam (config : Option Nat) (base : Nat) (backing : BackingArray) (offset : Nat)
    (length : Option Nat) : Op Unit :=
  let n := length.getD (backing.size - offset)
  if offset + n ≤ backing.size then
    installRange config base n (some (.bytes (backing.origin + offset)))
      (some (.bytes (backing.origin + offset)))
  else raise (.configuration .mappingBeyondBacking)

/-- `MapROM(base, backing)` (R57): the read-hooks only. -/
def mapRom (config : Option Nat) (base : Nat) (backing : BackingArray) : Op Unit :=
  installRange config base backing.size (some (.bytes backing.origin)) none

/-- The read side of a register mode (R58). -/
def RegisterMode.readSide (mode : RegisterMode) (b : Backing) : Option Backing :=
  match mode with
  | .read => some b
  | .write => none
  | .readWrite => some b

/-- The write side of a register mode (R58). -/
def RegisterMode.writeSide (mode : RegisterMode) (b : Backing) : Option Backing :=
  match mode with
  | .read => none
  | .write => some b
  | .readWrite => some b

/-- `MapRegister(address, cell, mode)` (R58): exactly one address, the named directions. -/
def mapRegister (config : Option Nat) (address cell : Nat) (mode : RegisterMode) : Op Unit :=
  installRange config address 1 (mode.readSide (.bytes cell)) (mode.writeSide (.bytes cell))

/-- A peripheral's own hook functions (R58, R66). -/
def mapDevice (config : Option Nat) (base length port : Nat) (mode : RegisterMode) : Op Unit :=
  installRange config base length (mode.readSide (.device port)) (mode.writeSide (.device port))

/-- R62: a segment over `[origin, origin + size)`. Which bank is active first the spec does not say
(91_not_in_source.md N10); bank 0 is the model's choice (DESIGN CHOICE, log 30). A segment owns 1..N
banks, so one without a bank is refused (log 9). -/
def mapSegment (config : Option Nat) (name : String) (origin size : Nat) (banks : List Nat) :
    Op Unit := do
  let c ← targetConfiguration config
  let s ← get
  if banks.isEmpty then raise (.configuration .bankOutOfRange)
  else if origin + size ≤ s.config.memSize then
    modifyMem fun m => m.addSegment c
      { name := name, origin := origin, size := size, banks := banks, active := 0 }
  else raise (.configuration .mappingBeyondMemory)

/-- R62: sets a segment's active bank; an index outside its banks is a configuration error. A segment
that does not exist no rule mentions; the same error is the model's choice (DESIGN CHOICE, log 35). -/
def selectBank (id bank : Nat) : Op Unit := do
  let s ← get
  match s.mem.segments[id]? with
  | none => raise (.configuration .bankOutOfRange)
  | some seg =>
    if bank < seg.banks.length then
      modifyMem fun m => { m with segments := m.segments.set id { seg with active := bank } }
    else raise (.configuration .bankOutOfRange)

/-- `SetConfiguration(index)` (R60): no byte and no mapping changes. -/
def setConfiguration (index : Nat) : Op Unit := do
  checkConfiguration index
  modifyMem fun m => { m with cfg := index }

end Sys2Proof.Machine
end

