-- ==== Sys2Proof/Machine/Hooks.lean ====
section
/-!
DEFINITION. The interrupt registry (60_exceptions.md R310 to R313) and what a hook may do (R340,
R342 to R344, log 6): each invocation of a device hook or observer hands the host what R340 says it
receives, takes the next reply of the host's script, carries out the actions of its answer at once,
and answers its byte.
-/

namespace Sys2Proof.Machine

/-! ## The interrupt registry -/

/-- R310: "if `name` is already present its flag is overwritten; the map never holds a name twice". -/
def addIrq (irq : List IrqSource) (name : String) (autoAck : Bool) : List IrqSource :=
  irq.filter (fun e => e.name != name) ++ [⟨name, autoAck⟩]

/-- R311: no effect if absent. -/
def removeIrq (irq : List IrqSource) (name : String) : List IrqSource :=
  irq.filter (fun e => e.name != name)

/-- R312: adding a present name has no effect. -/
def addNmi (nmi : List String) (name : String) : List String :=
  if nmi.contains name then nmi else nmi ++ [name]

/-- R312: removing an absent name has no effect. -/
def removeNmi (nmi : List String) (name : String) : List String :=
  nmi.filter (fun n => n != name)

/-- `IrqLine = (irq is not empty)` (R313). -/
def State.irqLine (s : State) : Bool := !s.irq.isEmpty

/-- `NmiLine = (nmi is not empty)` (R313). -/
def State.nmiLine (s : State) : Bool := !s.nmi.isEmpty

/-! ## Accesses through the mapping -/

/-- Keeps what the host receives by an invocation of one of its functions. -/
def recordCall (call : HookCall) : Op Unit :=
  modify fun s => { s with hookCalls := call :: s.hookCalls }

/-- A byte that nothing constrains, the next one of the model's free value (log 7). -/
def takeFreeByte : Op Byte := fun s =>
  .ok (Config.freeByte s.freeCount, { s with freeCount := s.freeCount + 1 })

/-- `Read(a)` of 20_memory.md R52, with the invocation of a device's read-hook left to the caller, given
the device's port. -/
def readWith (device : Nat → Op Byte) (a : Word) : Op Byte := do
  let s ← get
  match s.readSlot a with
  | some (.byte k) => pure (s.mem.byteAt k)
  | some (.device port) => device port
  | none => raise (.invalidMemoryAccess a.toNat .read s.pc)

/-- `Write(a, v)` of 20_memory.md R53, with the invocation of a device's write-hook left to the
caller, given the device's port. -/
def writeWith (device : Nat → Op Unit) (a : Word) (v : Byte) : Op Unit := do
  let s ← get
  match s.writeSlot a with
  | some (.byte k) => modifyMem fun m => m.store k v
  | some (.device port) => device port
  | none =>
    if (s.readSlot a).isSome && s.config.romWritePolicy == .ignore then pure ()
    else raise (.invalidMemoryAccess a.toNat .write s.pc)

/-! ## Host actions -/

/-- A read of the host inside a hook (R343): the byte goes to the host. From a device it is a free byte:
the read-hook is the platform's own code, whose effects the script lists itself (log 6). -/
def hostRead (a : Word) : Op Unit := do
  let b ← readWith (fun port => do recordCall (.read port a); takeFreeByte) a
  modify fun s => { s with hostBytes := [b] }

/-- One action of the host (R340, R343). A write of the host that reaches a device hands its hook the
byte; the hook is the platform's own code, whose effects the script lists itself (log 6). -/
def applyAction : HostAction → Op Unit
  | .mapRam config base backing offset length => mapRam config base backing offset length
  | .mapRom config base backing => mapRom config base backing
  | .mapRegister config address cell mode => mapRegister config address cell mode
  | .mapDevice config base length port mode => mapDevice config base length port mode
  | .mapSegment config name origin size banks => mapSegment config name origin size banks
  | .selectBank id bank => selectBank id bank
  | .setConfiguration index => setConfiguration index
  | .setByte index value => modifyMem fun m => m.store index value
  | .memRead a => hostRead a
  | .memWrite a v => writeWith (fun port => recordCall (.write port a v)) a v
  | .addIrqSource name autoAck => modify fun s => { s with irq := addIrq s.irq name autoAck }
  | .removeIrqSource name => modify fun s => { s with irq := removeIrq s.irq name }
  | .addNmiSource name => modify fun s => { s with nmi := addNmi s.nmi name }
  | .removeNmiSource name => modify fun s => { s with nmi := removeNmi s.nmi name }

/-- Actions in order. -/
def applyActions : List HostAction → Op Unit
  | [] => pure ()
  | act :: rest => do
    applyAction act
    applyActions rest

/-! ## Hooks -/

/-- The answer of a reply to an invocation. -/
def HookReply.answer (reply : HookReply) (call : HookCall) : HookAnswer :=
  (reply.cases.lookup call).getD reply.otherwise

/-- The answer of the next reply of the host's script; when the script is used up, a free byte and no
action (log 7). -/
def takeReply (call : HookCall) : Op HookAnswer := fun s =>
  match s.replies with
  | reply :: rest => .ok (reply.answer call, { s with replies := rest })
  | [] => (do let b ← takeFreeByte; pure ⟨b, []⟩ : Op HookAnswer) s

/-- One invocation of a device hook or observer with what the host receives: synchronous, complete
before the access returns (R340, R342, R344). -/
def invokeHook (call : HookCall) : Op Byte := do
  recordCall call
  let answer ← takeReply call
  applyActions answer.actions
  pure answer.byte

/-- The registered observers of one kind fire in order, each with the same call (R341). -/
def fireObservers (call : HookCall) : Nat → Op Unit
  | 0 => pure ()
  | n + 1 => do
    let _ ← invokeHook call
    fireObservers call n

end Sys2Proof.Machine
end

