-- ==== Sys2Proof/Machine/Ops.lean ====
section
/-!
DEFINITION. The operations every instruction is made of: the four access primitives (20_memory.md
R52 to R55), the fetch (40_step_addressing_flags.md R121, R125), the stack (R150 to R153), taking an
exception (46_stack_subroutine_interrupt.md R276, 60_exceptions.md R322) and returning from one
(R277).
-/

namespace Sys2Proof.Machine

/-- An operation run as a whole: its state, or its fault. -/
def complete (op : Op Unit) (s : State) : Result :=
  match op s with
  | .ok (_, t) => .next t
  | .error f => .fault f

/-! ## Access primitives -/

/-- `Read(a)` (R52): one invocation of the installed read-hook, of which the host receives nothing but
that it is invoked, at that address (60_exceptions.md R340). -/
def memRead (a : Word) : Op Byte := readWith (fun port => invokeHook (.read port a)) a

/-- `Write(a, v)` (R53): one invocation of the installed write-hook with `v`; ROM_WRITE_POLICY where
there is a read-hook only. -/
def memWrite (a : Word) (v : Byte) : Op Unit :=
  writeWith (fun port => do let _ ← invokeHook (.write port a v); pure ()) a v

/-- `ReadWord(a)` (R54): low byte first, `address + 1` wraps. -/
def memReadWord (a : Word) : Op Word := do
  let lo ← memRead a
  let hi ← memRead (a + 1)
  pure (wordOf hi lo)

/-- `WriteWord(a, w)` (R55): low byte first. -/
def memWriteWord (a w : Word) : Op Unit := do
  memWrite a (lowByte w)
  memWrite (a + 1) (highByte w)

/-! ## Fetch -/

/-- Reads the byte at PC and advances PC by 1 modulo 65536 (R121, `Fetch()` of R125, 10_state.md
R34). A faulting read leaves PC where it was (D28). -/
def fetchByte : Op Byte := do
  let s ← get
  let b ← memRead s.pc
  modify fun s => s.setPc (s.pc + 1)
  pure b

/-! ## Stack (page 1, 10_state.md R23) -/

/-- `0x0100 + SP`. -/
def stackAddress (sp : Byte) : Word := 0x0100#16 + zeroExtend sp

/-- `Push8(v)` (R150): write, then decrement. -/
def push8 (v : Byte) : Op Unit := do
  let s ← get
  memWrite (stackAddress s.sp) v
  modify fun s => s.setSp (s.sp - 1)

/-- `Pull8()` (R151): increment, then read. -/
def pull8 : Op Byte := do
  modify fun s => s.setSp (s.sp + 1)
  let s ← get
  memRead (stackAddress s.sp)

/-- `Push16(w)` (R152): high byte first. -/
def push16 (w : Word) : Op Unit := do
  push8 (highByte w)
  push8 (lowByte w)

/-- `Pull16()` (R153): low byte first. -/
def pull16 : Op Word := do
  let lo ← pull8
  let hi ← pull8
  pure (wordOf hi lo)

/-! ## Exceptions -/

/-- The status byte BRK and PHP push: Break and Unused set (D9, R272, R276). -/
def pushedByInstruction (p : Byte) : Byte := p ||| 0x30#8

/-- The status byte IRQ and NMI service push: Break clear, Unused set (D9, R322). -/
def pushedByInterrupt (p : Byte) : Byte := (p &&& 0xEF#8) ||| 0x20#8

/-- Taking an exception (R276, R322): push the return address, push the status copy, set
InterruptDisable, load PC from the vector. The copy is formed from `P` before I is set. -/
def enterException (returnPc : Word) (copy : Byte → Byte) (vector : Word) : Op Unit := do
  push16 returnPc
  let s ← get
  push8 (copy s.p)
  modify fun s => s.putFlag .i true
  let target ← memReadWord vector
  modify fun s => s.setPc target

/-- What PLP and RTI load (R273, R277, D10): the stored Break and Unused bits keep their values. -/
def restoredStatus (b p : Byte) : Byte := (b &&& 0xCF#8) ||| (p &&& 0x30#8)

/-- `b = Pull8(); P <- (b & 0xCF) | (P & 0x30)` (R273). -/
def pullStatus : Op Unit := do
  let b ← pull8
  modify fun s => s.setP (restoredStatus b s.p)

/-- Returning from an exception (R277): the status, then PC with nothing added. -/
def returnFromException : Op Unit := do
  pullStatus
  let target ← pull16
  modify fun s => s.setPc target

end Sys2Proof.Machine
end

