-- ==== Sys2Proof/Machine/Operands.lean ====
section
/-!
DEFINITION. Addressing-mode resolution (40_step_addressing_flags.md R125 to R138) and what a
behavior receives (R123). The operand bytes have been fetched by the step (Machine/Loop.lean); here
the modes turn them into an address, reading pointers and index registers as they are now.
-/

namespace Sys2Proof.Machine

/-- A pointer in the zero page (R134, R135): `ReadWord(p)` under `ZP_PTR_WRAP = linear`, the high byte
at `(p + 1) mod 256` under `page0`; the low byte is read first. -/
def readZeroPagePointer (p : Byte) : Op Word := do
  let s ← get
  match s.config.zpPtrWrap with
  | .linear => memReadWord (zeroExtend p)
  | .page0 => do
    let lo ← memRead (zeroExtend p)
    let hi ← memRead (zeroExtend (p + 1))
    pure (wordOf hi lo)

/-- The pointer of `JMP (ptr)` (R136): the high byte comes from the same page. -/
def readJumpPointer (ptr : Word) : Op Word := do
  let lo ← memRead ptr
  let hi ← memRead ((ptr &&& 0xFF00#16) ||| ((ptr + 1) &&& 0x00FF#16))
  pure (wordOf hi lo)

/-- `base + index mod 65536`, and whether the low byte overflowed (R137). -/
def indexed (base : Word) (index : Byte) : Word × Bool :=
  (base + zeroExtend index, decide (255 < (lowByte base).toNat + index.toNat))

/-- `Resolve(mode)` for the modes that give an address: the address and `crossed` (R130 to R138). -/
def effectiveAddress : Address → Op (Word × Bool)
  | .zeroPage nn => pure (zeroExtend nn, false)
  | .zeroPageX nn => do
    let s ← get
    pure (zeroExtend (nn + s.x), false)
  | .zeroPageY nn => do
    let s ← get
    pure (zeroExtend (nn + s.y), false)
  | .absolute w => pure (w, false)
  | .absoluteX w => do
    let s ← get
    pure (indexed w s.x)
  | .absoluteY w => do
    let s ← get
    pure (indexed w s.y)
  | .indexedIndirectX nn => do
    let s ← get
    let addr ← readZeroPagePointer (nn + s.x)
    pure (addr, false)
  | .indirectIndexedY nn => do
    let base ← readZeroPagePointer nn
    let s ← get
    pure (indexed base s.y)
  | .indirect w => do
    let addr ← readJumpPointer w
    pure (addr, false)

/-- Notes whether a page was crossed, for the cycle rule (R160). -/
def noteCrossed (crossed : Bool) : Op Unit :=
  modify fun s => s.setEvents { s.events with crossed := crossed }

/-- The resolved address of shape (c), "without pre-fetching its content" (R123). -/
def locate (m : Address) : Op Word := do
  let (addr, crossed) ← effectiveAddress m
  noteCrossed crossed
  pure addr

/-- The resolved byte value of shape (b): `Read(addr)` after resolution and before the behavior
(R123). -/
def loadOperand (m : Address) : Op Byte := do
  let addr ← locate m
  memRead addr

/-- The byte a shape (b) instruction consumes: the operand itself for Immediate and Relative, else
the byte at the resolved address (R123, R128, R129). Implied and Accumulator give none. -/
def valueOf : Operand → Option (Op Byte)
  | .implied => none
  | .accumulator => none
  | .immediate nn => some (pure nn)
  | .relative nn => some (pure nn)
  | .memory m => some (loadOperand m)

/-- The address a shape (c) instruction consumes (R123). -/
def addressOf : Operand → Option (Op Word)
  | .implied => none
  | .accumulator => none
  | .immediate _ => none
  | .relative _ => none
  | .memory m => some (locate m)

end Sys2Proof.Machine
end

