-- ==== Sys2Proof/Machine/Addresses.lean ====
section
/-!
DEFINITION. Instructions that consume a resolved address (43_address_operand.md, capability shape
c): stores, memory increment and decrement, JMP. One behavior per mnemonic, one meaning per row.
-/

namespace Sys2Proof.Machine

/-- R223, R224: exactly one read, then one write, then the flags from the value computed, whatever
became of the write. -/
def modifyMemory (f : Byte → Byte) (addr : Word) : Op Unit := do
  let v ← memRead addr
  memWrite addr (f v)
  modify fun s => s.setZN (f v)

/-- R220, STA: `Write(addr, A)`, no flags. -/
def staBehavior (addr : Word) : Op Unit := do
  let s ← get
  memWrite addr s.a

/-- R220: `STA $nn`. -/
def execStaZp (nn : Byte) (s : State) : Result :=
  complete (locate (.zeroPage nn) >>= staBehavior) s

/-- R220: `STA $nn,X`. -/
def execStaZpX (nn : Byte) (s : State) : Result :=
  complete (locate (.zeroPageX nn) >>= staBehavior) s

/-- R220: `STA $hhll`. -/
def execStaAbs (w : Word) (s : State) : Result :=
  complete (locate (.absolute w) >>= staBehavior) s

/-- R220: `STA $hhll,X`. -/
def execStaAbsX (w : Word) (s : State) : Result :=
  complete (locate (.absoluteX w) >>= staBehavior) s

/-- R220: `STA $hhll,Y`. -/
def execStaAbsY (w : Word) (s : State) : Result :=
  complete (locate (.absoluteY w) >>= staBehavior) s

/-- R220: `STA ($nn,X)`. -/
def execStaIzX (nn : Byte) (s : State) : Result :=
  complete (locate (.indexedIndirectX nn) >>= staBehavior) s

/-- R220: `STA ($nn),Y`. -/
def execStaIzY (nn : Byte) (s : State) : Result :=
  complete (locate (.indirectIndexedY nn) >>= staBehavior) s

/-- R221, STX: `Write(addr, X)`, no flags. -/
def stxBehavior (addr : Word) : Op Unit := do
  let s ← get
  memWrite addr s.x

/-- R221: `STX $nn`. -/
def execStxZp (nn : Byte) (s : State) : Result :=
  complete (locate (.zeroPage nn) >>= stxBehavior) s

/-- R221: `STX $nn,Y`. -/
def execStxZpY (nn : Byte) (s : State) : Result :=
  complete (locate (.zeroPageY nn) >>= stxBehavior) s

/-- R221: `STX $hhll`. -/
def execStxAbs (w : Word) (s : State) : Result :=
  complete (locate (.absolute w) >>= stxBehavior) s

/-- R222, STY: `Write(addr, Y)`, no flags. -/
def styBehavior (addr : Word) : Op Unit := do
  let s ← get
  memWrite addr s.y

/-- R222: `STY $nn`. -/
def execStyZp (nn : Byte) (s : State) : Result :=
  complete (locate (.zeroPage nn) >>= styBehavior) s

/-- R222: `STY $nn,X`. -/
def execStyZpX (nn : Byte) (s : State) : Result :=
  complete (locate (.zeroPageX nn) >>= styBehavior) s

/-- R222: `STY $hhll`. -/
def execStyAbs (w : Word) (s : State) : Result :=
  complete (locate (.absolute w) >>= styBehavior) s

/-- R223, INC: `r = (Read(addr) + 1) mod 256; Write(addr, r); SetZN(r)`. -/
def incBehavior (addr : Word) : Op Unit := modifyMemory (fun v => v + 1) addr

/-- R223: `INC $nn`. -/
def execIncZp (nn : Byte) (s : State) : Result :=
  complete (locate (.zeroPage nn) >>= incBehavior) s

/-- R223: `INC $nn,X`. -/
def execIncZpX (nn : Byte) (s : State) : Result :=
  complete (locate (.zeroPageX nn) >>= incBehavior) s

/-- R223: `INC $hhll`. -/
def execIncAbs (w : Word) (s : State) : Result :=
  complete (locate (.absolute w) >>= incBehavior) s

/-- R223: `INC $hhll,X`. -/
def execIncAbsX (w : Word) (s : State) : Result :=
  complete (locate (.absoluteX w) >>= incBehavior) s

/-- R224, DEC: `r = (Read(addr) - 1) mod 256; Write(addr, r); SetZN(r)`. -/
def decBehavior (addr : Word) : Op Unit := modifyMemory (fun v => v - 1) addr

/-- R224: `DEC $nn`. -/
def execDecZp (nn : Byte) (s : State) : Result :=
  complete (locate (.zeroPage nn) >>= decBehavior) s

/-- R224: `DEC $nn,X`. -/
def execDecZpX (nn : Byte) (s : State) : Result :=
  complete (locate (.zeroPageX nn) >>= decBehavior) s

/-- R224: `DEC $hhll`. -/
def execDecAbs (w : Word) (s : State) : Result :=
  complete (locate (.absolute w) >>= decBehavior) s

/-- R224: `DEC $hhll,X`. -/
def execDecAbsX (w : Word) (s : State) : Result :=
  complete (locate (.absoluteX w) >>= decBehavior) s

/-- R225, JMP: `PC <- addr`. -/
def jmpBehavior (addr : Word) : Op Unit := modify fun s => s.setPc addr

/-- R225: `JMP $hhll`. -/
def execJmpAbs (w : Word) (s : State) : Result :=
  complete (locate (.absolute w) >>= jmpBehavior) s

/-- R225: `JMP ($hhll)`. -/
def execJmpInd (w : Word) (s : State) : Result :=
  complete (locate (.indirect w) >>= jmpBehavior) s

end Sys2Proof.Machine
end

