-- ==== Sys2Proof/Machine/Branches.lean ====
section
/-!
DEFINITION. Conditional branches (45_branches.md, capability shape b: the value is the Relative
operand). PC is the address after the branch when the behavior runs; a taken branch adds the signed
offset to it.
-/

namespace Sys2Proof.Machine

/-- The target of a branch: `(PC + sext_16(operand)) mod 65536` (R250). -/
def branchTarget (pc : Word) (nn : Byte) : Word := pc + signExtend nn

/-- R250. No flag is written and no memory accessed; what the cycle rule needs is noted in `events`. -/
def branch (cond : Bool) (nn : Byte) (s : State) : State :=
  if cond then
    let target := branchTarget s.pc nn
    (s.setEvents { s.events with
      branchTaken := true
      branchOtherPage := highByte target != highByte s.pc }).setPc target
  else s

/-- R251, BCC: taken when `P.C == 0`. -/
def bccBehavior (nn : Byte) : Op Unit := modify fun s => branch (!s.flag .c) nn s

/-- R251: `BCC label`. -/
def execBcc (nn : Byte) (s : State) : Result := complete (bccBehavior nn) s

/-- R252, BCS: taken when `P.C == 1`. -/
def bcsBehavior (nn : Byte) : Op Unit := modify fun s => branch (s.flag .c) nn s

/-- R252: `BCS label`. -/
def execBcs (nn : Byte) (s : State) : Result := complete (bcsBehavior nn) s

/-- R253, BEQ: taken when `P.Z == 1`. -/
def beqBehavior (nn : Byte) : Op Unit := modify fun s => branch (s.flag .z) nn s

/-- R253: `BEQ label`. -/
def execBeq (nn : Byte) (s : State) : Result := complete (beqBehavior nn) s

/-- R254, BNE: taken when `P.Z == 0`. -/
def bneBehavior (nn : Byte) : Op Unit := modify fun s => branch (!s.flag .z) nn s

/-- R254: `BNE label`. -/
def execBne (nn : Byte) (s : State) : Result := complete (bneBehavior nn) s

/-- R255, BMI: taken when `P.N == 1`. -/
def bmiBehavior (nn : Byte) : Op Unit := modify fun s => branch (s.flag .n) nn s

/-- R255: `BMI label`. -/
def execBmi (nn : Byte) (s : State) : Result := complete (bmiBehavior nn) s

/-- R256, BPL: taken when `P.N == 0`. -/
def bplBehavior (nn : Byte) : Op Unit := modify fun s => branch (!s.flag .n) nn s

/-- R256: `BPL label`. -/
def execBpl (nn : Byte) (s : State) : Result := complete (bplBehavior nn) s

/-- R257, BVC: taken when `P.V == 0`. -/
def bvcBehavior (nn : Byte) : Op Unit := modify fun s => branch (!s.flag .v) nn s

/-- R257: `BVC label`. -/
def execBvc (nn : Byte) (s : State) : Result := complete (bvcBehavior nn) s

/-- R258, BVS: taken when `P.V == 1`. -/
def bvsBehavior (nn : Byte) : Op Unit := modify fun s => branch (s.flag .v) nn s

/-- R258: `BVS label`. -/
def execBvs (nn : Byte) (s : State) : Result := complete (bvsBehavior nn) s

end Sys2Proof.Machine
end

