-- ==== Sys2Proof/Machine/Registers.lean ====
section
/-!
DEFINITION. Register-and-flag-only instructions (41_register_only.md, capability shape a): one
behavior per mnemonic, one meaning per row. A meaning runs after the fetch: `s.pc` is the address
after the instruction (10_state.md R33), and a meaning that does not write PC leaves it there.
-/

namespace Sys2Proof.Machine

/-- R170, TAX: `X <- A; SetZN(X)`. -/
def taxBehavior : Op Unit := modify fun s => (s.setX s.a).setZN s.a

/-- R170: `TAX`. -/
def execTax (s : State) : Result := complete taxBehavior s

/-- R171, TAY: `Y <- A; SetZN(Y)`. -/
def tayBehavior : Op Unit := modify fun s => (s.setY s.a).setZN s.a

/-- R171: `TAY`. -/
def execTay (s : State) : Result := complete tayBehavior s

/-- R172, TXA: `A <- X; SetZN(A)`. -/
def txaBehavior : Op Unit := modify fun s => (s.setA s.x).setZN s.x

/-- R172: `TXA`. -/
def execTxa (s : State) : Result := complete txaBehavior s

/-- R173, TYA: `A <- Y; SetZN(A)`. -/
def tyaBehavior : Op Unit := modify fun s => (s.setA s.y).setZN s.y

/-- R173: `TYA`. -/
def execTya (s : State) : Result := complete tyaBehavior s

/-- R174, TSX: `X <- SP; SetZN(X)`. -/
def tsxBehavior : Op Unit := modify fun s => (s.setX s.sp).setZN s.sp

/-- R174: `TSX`. -/
def execTsx (s : State) : Result := complete tsxBehavior s

/-- R175, TXS: `SP <- X`, no flags. -/
def txsBehavior : Op Unit := modify fun s => s.setSp s.x

/-- R175: `TXS`. -/
def execTxs (s : State) : Result := complete txsBehavior s

/-- R176, INX: `X <- (X + 1) mod 256; SetZN(X)`. -/
def inxBehavior : Op Unit := modify fun s => (s.setX (s.x + 1)).setZN (s.x + 1)

/-- R176: `INX`. -/
def execInx (s : State) : Result := complete inxBehavior s

/-- R177, INY: `Y <- (Y + 1) mod 256; SetZN(Y)`. -/
def inyBehavior : Op Unit := modify fun s => (s.setY (s.y + 1)).setZN (s.y + 1)

/-- R177: `INY`. -/
def execIny (s : State) : Result := complete inyBehavior s

/-- R178, DEX: `X <- (X - 1) mod 256; SetZN(X)`. -/
def dexBehavior : Op Unit := modify fun s => (s.setX (s.x - 1)).setZN (s.x - 1)

/-- R178: `DEX`. -/
def execDex (s : State) : Result := complete dexBehavior s

/-- R179, DEY: `Y <- (Y - 1) mod 256; SetZN(Y)`. -/
def deyBehavior : Op Unit := modify fun s => (s.setY (s.y - 1)).setZN (s.y - 1)

/-- R179: `DEY`. -/
def execDey (s : State) : Result := complete deyBehavior s

/-- R180, CLC: `P.C <- 0`. -/
def clcBehavior : Op Unit := modify fun s => s.putFlag .c false

/-- R180: `CLC`. -/
def execClc (s : State) : Result := complete clcBehavior s

/-- R181, SEC: `P.C <- 1`. -/
def secBehavior : Op Unit := modify fun s => s.putFlag .c true

/-- R181: `SEC`. -/
def execSec (s : State) : Result := complete secBehavior s

/-- R182, CLI: `P.I <- 0`. -/
def cliBehavior : Op Unit := modify fun s => s.putFlag .i false

/-- R182: `CLI`. -/
def execCli (s : State) : Result := complete cliBehavior s

/-- R183, SEI: `P.I <- 1`. -/
def seiBehavior : Op Unit := modify fun s => s.putFlag .i true

/-- R183: `SEI`. -/
def execSei (s : State) : Result := complete seiBehavior s

/-- R184, CLD: `P.D <- 0`. -/
def cldBehavior : Op Unit := modify fun s => s.putFlag .d false

/-- R184: `CLD`. -/
def execCld (s : State) : Result := complete cldBehavior s

/-- R185, SED: `P.D <- 1`. -/
def sedBehavior : Op Unit := modify fun s => s.putFlag .d true

/-- R185: `SED`. -/
def execSed (s : State) : Result := complete sedBehavior s

/-- R186, CLV: `P.V <- 0`. -/
def clvBehavior : Op Unit := modify fun s => s.putFlag .v false

/-- R186: `CLV`. -/
def execClv (s : State) : Result := complete clvBehavior s

/-- R188, NOP: no effect (PC was advanced by the fetch). -/
def nopBehavior : Op Unit := pure ()

/-- R188: `NOP`. -/
def execNop (s : State) : Result := complete nopBehavior s

end Sys2Proof.Machine
end

