-- ==== Sys2Proof/Machine/Shifts.lean ====
section
/-!
DEFINITION. Shifts and rotates (44_shift_rotate.md): an accumulator form (shape a) and four memory
forms (shape c) of each, over the helpers of 40_step_addressing_flags.md R144 to R147.
-/

namespace Sys2Proof.Machine

/-- The accumulator form: `(r, C) = F(A, P.C); A <- r; P.C <- C; SetZN(r)`. -/
def shiftAccumulator (f : Byte → Bool → ShiftResult) : Op Unit := do
  let s ← get
  let r := f s.a (s.flag .c)
  modify fun s => (s.setA r.value).setP (r.status s.p)

/-- The memory form: `v = Read(addr); (r, C) = F(v, P.C); Write(addr, r); P.C <- C; SetZN(r)`. -/
def shiftMemory (f : Byte → Bool → ShiftResult) (addr : Word) : Op Unit := do
  let v ← memRead addr
  let s ← get
  let r := f v (s.flag .c)
  memWrite addr r.value
  modify fun s => s.setP (r.status s.p)

/-- R240, ASL on memory (R144). -/
def aslBehavior (addr : Word) : Op Unit := shiftMemory shiftLeft addr

/-- R240, ASL on the accumulator (R144). -/
def aslAccBehavior : Op Unit := shiftAccumulator shiftLeft

/-- R240: `ASL A`. -/
def execAslAcc (s : State) : Result := complete aslAccBehavior s

/-- R240: `ASL $nn`. -/
def execAslZp (nn : Byte) (s : State) : Result :=
  complete (locate (.zeroPage nn) >>= aslBehavior) s

/-- R240: `ASL $nn,X`. -/
def execAslZpX (nn : Byte) (s : State) : Result :=
  complete (locate (.zeroPageX nn) >>= aslBehavior) s

/-- R240: `ASL $hhll`. -/
def execAslAbs (w : Word) (s : State) : Result :=
  complete (locate (.absolute w) >>= aslBehavior) s

/-- R240: `ASL $hhll,X`. -/
def execAslAbsX (w : Word) (s : State) : Result :=
  complete (locate (.absoluteX w) >>= aslBehavior) s

/-- R241, LSR on memory (R145). -/
def lsrBehavior (addr : Word) : Op Unit := shiftMemory shiftRight addr

/-- R241, LSR on the accumulator (R145). -/
def lsrAccBehavior : Op Unit := shiftAccumulator shiftRight

/-- R241: `LSR A`. -/
def execLsrAcc (s : State) : Result := complete lsrAccBehavior s

/-- R241: `LSR $nn`. -/
def execLsrZp (nn : Byte) (s : State) : Result :=
  complete (locate (.zeroPage nn) >>= lsrBehavior) s

/-- R241: `LSR $nn,X`. -/
def execLsrZpX (nn : Byte) (s : State) : Result :=
  complete (locate (.zeroPageX nn) >>= lsrBehavior) s

/-- R241: `LSR $hhll`. -/
def execLsrAbs (w : Word) (s : State) : Result :=
  complete (locate (.absolute w) >>= lsrBehavior) s

/-- R241: `LSR $hhll,X`. -/
def execLsrAbsX (w : Word) (s : State) : Result :=
  complete (locate (.absoluteX w) >>= lsrBehavior) s

/-- R242, ROL on memory (R146). -/
def rolBehavior (addr : Word) : Op Unit := shiftMemory rotateLeft addr

/-- R242, ROL on the accumulator (R146). -/
def rolAccBehavior : Op Unit := shiftAccumulator rotateLeft

/-- R242: `ROL A`. -/
def execRolAcc (s : State) : Result := complete rolAccBehavior s

/-- R242: `ROL $nn`. -/
def execRolZp (nn : Byte) (s : State) : Result :=
  complete (locate (.zeroPage nn) >>= rolBehavior) s

/-- R242: `ROL $nn,X`. -/
def execRolZpX (nn : Byte) (s : State) : Result :=
  complete (locate (.zeroPageX nn) >>= rolBehavior) s

/-- R242: `ROL $hhll`. -/
def execRolAbs (w : Word) (s : State) : Result :=
  complete (locate (.absolute w) >>= rolBehavior) s

/-- R242: `ROL $hhll,X`. -/
def execRolAbsX (w : Word) (s : State) : Result :=
  complete (locate (.absoluteX w) >>= rolBehavior) s

/-- R243, ROR on memory (R147). -/
def rorBehavior (addr : Word) : Op Unit := shiftMemory rotateRight addr

/-- R243, ROR on the accumulator (R147). -/
def rorAccBehavior : Op Unit := shiftAccumulator rotateRight

/-- R243: `ROR A`. -/
def execRorAcc (s : State) : Result := complete rorAccBehavior s

/-- R243: `ROR $nn`. -/
def execRorZp (nn : Byte) (s : State) : Result :=
  complete (locate (.zeroPage nn) >>= rorBehavior) s

/-- R243: `ROR $nn,X`. -/
def execRorZpX (nn : Byte) (s : State) : Result :=
  complete (locate (.zeroPageX nn) >>= rorBehavior) s

/-- R243: `ROR $hhll`. -/
def execRorAbs (w : Word) (s : State) : Result :=
  complete (locate (.absolute w) >>= rorBehavior) s

/-- R243: `ROR $hhll,X`. -/
def execRorAbsX (w : Word) (s : State) : Result :=
  complete (locate (.absoluteX w) >>= rorBehavior) s

end Sys2Proof.Machine
end

