-- ==== Sys2Proof/Machine/Stack.lean ====
section
/-!
DEFINITION. Stack, subroutine, software interrupt and return (46_stack_subroutine_interrupt.md,
capability shape d), over the stack primitives and the exception entry and return of Machine/Ops.lean.
-/

namespace Sys2Proof.Machine

/-- R270, PHA: `Push8(A)`. -/
def phaBehavior : Op Unit := do
  let s ← get
  push8 s.a

/-- R270: `PHA`. -/
def execPha (s : State) : Result := complete phaBehavior s

/-- R271, PLA: `A <- Pull8(); SetZN(A)`. -/
def plaBehavior : Op Unit := do
  let v ← pull8
  modify fun s => (s.setA v).setZN v

/-- R271: `PLA`. -/
def execPla (s : State) : Result := complete plaBehavior s

/-- R272, PHP: `Push8(P | 0x30)`; P itself unchanged. -/
def phpBehavior : Op Unit := do
  let s ← get
  push8 (pushedByInstruction s.p)

/-- R272: `PHP`. -/
def execPhp (s : State) : Result := complete phpBehavior s

/-- R273: `PLP`, the pulled byte, but the stored Break and Unused bits. -/
def execPlp (s : State) : Result := complete pullStatus s

/-- R274, JSR: `Push16((PC - 1) mod 65536); PC <- addr`; the operand bytes were fetched before. R274 and
D27 are written for its Absolute mode; that the same formula runs in the other modes of a table is the
model's choice (DESIGN CHOICE, log 32). -/
def jsrBehavior (addr : Word) : Op Unit := do
  let s ← get
  push16 (s.pc - 1)
  modify fun s => s.setPc addr

/-- R274: `JSR $hhll`. -/
def execJsr (w : Word) (s : State) : Result :=
  complete (locate (.absolute w) >>= jsrBehavior) s

/-- R275, RTS: `PC <- (Pull16() + 1) mod 65536`. -/
def rtsBehavior : Op Unit := do
  let w ← pull16
  modify fun s => s.setPc (w + 1)

/-- R275: `RTS`. -/
def execRts (s : State) : Result := complete rtsBehavior s

/-- R276, BRK: takes the software interrupt: pushes `(PC + 1) mod 65536` and `P | 0x30`, sets I, loads PC
from `$FFFE`. In its Implied mode the pushed address is that of BRK + 2 (D27). In a mode with operand
bytes, which only another table gives it, R276's formula and D27's "own address + 2" differ; that the
formula runs is the model's choice (DESIGN CHOICE, log 32). -/
def brkBehavior : Op Unit := do
  let s ← get
  enterException (s.pc + 1) pushedByInstruction 0xFFFE#16

/-- R276: `BRK`. -/
def execBrk (s : State) : Result := complete brkBehavior s

/-- R277: `RTI`, restores P (but the stored Break and Unused bits) and PC. -/
def execRti (s : State) : Result := complete returnFromException s

end Sys2Proof.Machine
end

