-- ==== Sys2Proof/Machine/Values.lean ====
section
/-!
DEFINITION. Instructions that consume a byte value (42_byte_operand.md, capability shape b): one
behavior per mnemonic, and one meaning per row, which obtains the value by the row's addressing mode
(40_step_addressing_flags.md R123) and hands it to the behavior.
-/

namespace Sys2Proof.Machine

/-- A and the flags of an addition or subtraction. -/
def State.setSum (s : State) (r : AddResult) : State := (s.setA r.value).setP (r.status s.p)

/-- R200, LDA: `A <- value; SetZN(A)`. -/
def ldaBehavior (v : Byte) : Op Unit := modify fun s => (s.setA v).setZN v

/-- R200: `LDA #$nn`. -/
def execLdaImm (nn : Byte) (s : State) : Result := complete (ldaBehavior nn) s

/-- R200: `LDA $nn`. -/
def execLdaZp (nn : Byte) (s : State) : Result :=
  complete (loadOperand (.zeroPage nn) >>= ldaBehavior) s

/-- R200: `LDA $nn,X`. -/
def execLdaZpX (nn : Byte) (s : State) : Result :=
  complete (loadOperand (.zeroPageX nn) >>= ldaBehavior) s

/-- R200: `LDA $hhll`. -/
def execLdaAbs (w : Word) (s : State) : Result :=
  complete (loadOperand (.absolute w) >>= ldaBehavior) s

/-- R200: `LDA $hhll,X`. -/
def execLdaAbsX (w : Word) (s : State) : Result :=
  complete (loadOperand (.absoluteX w) >>= ldaBehavior) s

/-- R200: `LDA $hhll,Y`. -/
def execLdaAbsY (w : Word) (s : State) : Result :=
  complete (loadOperand (.absoluteY w) >>= ldaBehavior) s

/-- R200: `LDA ($nn,X)`. -/
def execLdaIzX (nn : Byte) (s : State) : Result :=
  complete (loadOperand (.indexedIndirectX nn) >>= ldaBehavior) s

/-- R200: `LDA ($nn),Y`. -/
def execLdaIzY (nn : Byte) (s : State) : Result :=
  complete (loadOperand (.indirectIndexedY nn) >>= ldaBehavior) s

/-- R201, LDX: `X <- value; SetZN(X)`. -/
def ldxBehavior (v : Byte) : Op Unit := modify fun s => (s.setX v).setZN v

/-- R201: `LDX #$nn`. -/
def execLdxImm (nn : Byte) (s : State) : Result := complete (ldxBehavior nn) s

/-- R201: `LDX $nn`. -/
def execLdxZp (nn : Byte) (s : State) : Result :=
  complete (loadOperand (.zeroPage nn) >>= ldxBehavior) s

/-- R201: `LDX $nn,Y`. -/
def execLdxZpY (nn : Byte) (s : State) : Result :=
  complete (loadOperand (.zeroPageY nn) >>= ldxBehavior) s

/-- R201: `LDX $hhll`. -/
def execLdxAbs (w : Word) (s : State) : Result :=
  complete (loadOperand (.absolute w) >>= ldxBehavior) s

/-- R201: `LDX $hhll,Y`. -/
def execLdxAbsY (w : Word) (s : State) : Result :=
  complete (loadOperand (.absoluteY w) >>= ldxBehavior) s

/-- R202, LDY: `Y <- value; SetZN(Y)`. -/
def ldyBehavior (v : Byte) : Op Unit := modify fun s => (s.setY v).setZN v

/-- R202: `LDY #$nn`. -/
def execLdyImm (nn : Byte) (s : State) : Result := complete (ldyBehavior nn) s

/-- R202: `LDY $nn`. -/
def execLdyZp (nn : Byte) (s : State) : Result :=
  complete (loadOperand (.zeroPage nn) >>= ldyBehavior) s

/-- R202: `LDY $nn,X`. -/
def execLdyZpX (nn : Byte) (s : State) : Result :=
  complete (loadOperand (.zeroPageX nn) >>= ldyBehavior) s

/-- R202: `LDY $hhll`. -/
def execLdyAbs (w : Word) (s : State) : Result :=
  complete (loadOperand (.absolute w) >>= ldyBehavior) s

/-- R202: `LDY $hhll,X`. -/
def execLdyAbsX (w : Word) (s : State) : Result :=
  complete (loadOperand (.absoluteX w) >>= ldyBehavior) s

/-- R203, ADC: A and C, Z, N, V from `AddWithCarry(A, value, P.C)`; P.D is not read (D3). -/
def adcBehavior (v : Byte) : Op Unit := modify fun s => s.setSum (addWithCarry s.a v (s.flag .c))

/-- R203: `ADC #$nn`. -/
def execAdcImm (nn : Byte) (s : State) : Result := complete (adcBehavior nn) s

/-- R203: `ADC $nn`. -/
def execAdcZp (nn : Byte) (s : State) : Result :=
  complete (loadOperand (.zeroPage nn) >>= adcBehavior) s

/-- R203: `ADC $nn,X`. -/
def execAdcZpX (nn : Byte) (s : State) : Result :=
  complete (loadOperand (.zeroPageX nn) >>= adcBehavior) s

/-- R203: `ADC $hhll`. -/
def execAdcAbs (w : Word) (s : State) : Result :=
  complete (loadOperand (.absolute w) >>= adcBehavior) s

/-- R203: `ADC $hhll,X`. -/
def execAdcAbsX (w : Word) (s : State) : Result :=
  complete (loadOperand (.absoluteX w) >>= adcBehavior) s

/-- R203: `ADC $hhll,Y`. -/
def execAdcAbsY (w : Word) (s : State) : Result :=
  complete (loadOperand (.absoluteY w) >>= adcBehavior) s

/-- R203: `ADC ($nn,X)`. -/
def execAdcIzX (nn : Byte) (s : State) : Result :=
  complete (loadOperand (.indexedIndirectX nn) >>= adcBehavior) s

/-- R203: `ADC ($nn),Y`. -/
def execAdcIzY (nn : Byte) (s : State) : Result :=
  complete (loadOperand (.indirectIndexedY nn) >>= adcBehavior) s

/-- R204, SBC: A and C, Z, N, V from `SubtractWithCarry(A, value, P.C)`; P.D is not read (D3). -/
def sbcBehavior (v : Byte) : Op Unit := modify fun s => s.setSum (subtractWithCarry s.a v (s.flag .c))

/-- R204: `SBC #$nn`. -/
def execSbcImm (nn : Byte) (s : State) : Result := complete (sbcBehavior nn) s

/-- R204: `SBC $nn`. -/
def execSbcZp (nn : Byte) (s : State) : Result :=
  complete (loadOperand (.zeroPage nn) >>= sbcBehavior) s

/-- R204: `SBC $nn,X`. -/
def execSbcZpX (nn : Byte) (s : State) : Result :=
  complete (loadOperand (.zeroPageX nn) >>= sbcBehavior) s

/-- R204: `SBC $hhll`. -/
def execSbcAbs (w : Word) (s : State) : Result :=
  complete (loadOperand (.absolute w) >>= sbcBehavior) s

/-- R204: `SBC $hhll,X`. -/
def execSbcAbsX (w : Word) (s : State) : Result :=
  complete (loadOperand (.absoluteX w) >>= sbcBehavior) s

/-- R204: `SBC $hhll,Y`. -/
def execSbcAbsY (w : Word) (s : State) : Result :=
  complete (loadOperand (.absoluteY w) >>= sbcBehavior) s

/-- R204: `SBC ($nn,X)`. -/
def execSbcIzX (nn : Byte) (s : State) : Result :=
  complete (loadOperand (.indexedIndirectX nn) >>= sbcBehavior) s

/-- R204: `SBC ($nn),Y`. -/
def execSbcIzY (nn : Byte) (s : State) : Result :=
  complete (loadOperand (.indirectIndexedY nn) >>= sbcBehavior) s

/-- R205, AND: `A <- A & value; SetZN(A)`. -/
def andBehavior (v : Byte) : Op Unit := modify fun s => (s.setA (s.a &&& v)).setZN (s.a &&& v)

/-- R205: `AND #$nn`. -/
def execAndImm (nn : Byte) (s : State) : Result := complete (andBehavior nn) s

/-- R205: `AND $nn`. -/
def execAndZp (nn : Byte) (s : State) : Result :=
  complete (loadOperand (.zeroPage nn) >>= andBehavior) s

/-- R205: `AND $nn,X`. -/
def execAndZpX (nn : Byte) (s : State) : Result :=
  complete (loadOperand (.zeroPageX nn) >>= andBehavior) s

/-- R205: `AND $hhll`. -/
def execAndAbs (w : Word) (s : State) : Result :=
  complete (loadOperand (.absolute w) >>= andBehavior) s

/-- R205: `AND $hhll,X`. -/
def execAndAbsX (w : Word) (s : State) : Result :=
  complete (loadOperand (.absoluteX w) >>= andBehavior) s

/-- R205: `AND $hhll,Y`. -/
def execAndAbsY (w : Word) (s : State) : Result :=
  complete (loadOperand (.absoluteY w) >>= andBehavior) s

/-- R205: `AND ($nn,X)`. -/
def execAndIzX (nn : Byte) (s : State) : Result :=
  complete (loadOperand (.indexedIndirectX nn) >>= andBehavior) s

/-- R205: `AND ($nn),Y`. -/
def execAndIzY (nn : Byte) (s : State) : Result :=
  complete (loadOperand (.indirectIndexedY nn) >>= andBehavior) s

/-- R206, ORA: `A <- A | value; SetZN(A)`. -/
def oraBehavior (v : Byte) : Op Unit := modify fun s => (s.setA (s.a ||| v)).setZN (s.a ||| v)

/-- R206: `ORA #$nn`. -/
def execOraImm (nn : Byte) (s : State) : Result := complete (oraBehavior nn) s

/-- R206: `ORA $nn`. -/
def execOraZp (nn : Byte) (s : State) : Result :=
  complete (loadOperand (.zeroPage nn) >>= oraBehavior) s

/-- R206: `ORA $nn,X`. -/
def execOraZpX (nn : Byte) (s : State) : Result :=
  complete (loadOperand (.zeroPageX nn) >>= oraBehavior) s

/-- R206: `ORA $hhll`. -/
def execOraAbs (w : Word) (s : State) : Result :=
  complete (loadOperand (.absolute w) >>= oraBehavior) s

/-- R206: `ORA $hhll,X`. -/
def execOraAbsX (w : Word) (s : State) : Result :=
  complete (loadOperand (.absoluteX w) >>= oraBehavior) s

/-- R206: `ORA $hhll,Y`. -/
def execOraAbsY (w : Word) (s : State) : Result :=
  complete (loadOperand (.absoluteY w) >>= oraBehavior) s

/-- R206: `ORA ($nn,X)`. -/
def execOraIzX (nn : Byte) (s : State) : Result :=
  complete (loadOperand (.indexedIndirectX nn) >>= oraBehavior) s

/-- R206: `ORA ($nn),Y`. -/
def execOraIzY (nn : Byte) (s : State) : Result :=
  complete (loadOperand (.indirectIndexedY nn) >>= oraBehavior) s

/-- R207, EOR: `A <- A ^ value; SetZN(A)`. -/
def eorBehavior (v : Byte) : Op Unit := modify fun s => (s.setA (s.a ^^^ v)).setZN (s.a ^^^ v)

/-- R207: `EOR #$nn`. -/
def execEorImm (nn : Byte) (s : State) : Result := complete (eorBehavior nn) s

/-- R207: `EOR $nn`. -/
def execEorZp (nn : Byte) (s : State) : Result :=
  complete (loadOperand (.zeroPage nn) >>= eorBehavior) s

/-- R207: `EOR $nn,X`. -/
def execEorZpX (nn : Byte) (s : State) : Result :=
  complete (loadOperand (.zeroPageX nn) >>= eorBehavior) s

/-- R207: `EOR $hhll`. -/
def execEorAbs (w : Word) (s : State) : Result :=
  complete (loadOperand (.absolute w) >>= eorBehavior) s

/-- R207: `EOR $hhll,X`. -/
def execEorAbsX (w : Word) (s : State) : Result :=
  complete (loadOperand (.absoluteX w) >>= eorBehavior) s

/-- R207: `EOR $hhll,Y`. -/
def execEorAbsY (w : Word) (s : State) : Result :=
  complete (loadOperand (.absoluteY w) >>= eorBehavior) s

/-- R207: `EOR ($nn,X)`. -/
def execEorIzX (nn : Byte) (s : State) : Result :=
  complete (loadOperand (.indexedIndirectX nn) >>= eorBehavior) s

/-- R207: `EOR ($nn),Y`. -/
def execEorIzY (nn : Byte) (s : State) : Result :=
  complete (loadOperand (.indirectIndexedY nn) >>= eorBehavior) s

/-- R208, CMP: C, Z, N from `Compare(A, value)`. -/
def cmpBehavior (v : Byte) : Op Unit := modify fun s => s.setP ((compareBytes s.a v).status s.p)

/-- R208: `CMP #$nn`. -/
def execCmpImm (nn : Byte) (s : State) : Result := complete (cmpBehavior nn) s

/-- R208: `CMP $nn`. -/
def execCmpZp (nn : Byte) (s : State) : Result :=
  complete (loadOperand (.zeroPage nn) >>= cmpBehavior) s

/-- R208: `CMP $nn,X`. -/
def execCmpZpX (nn : Byte) (s : State) : Result :=
  complete (loadOperand (.zeroPageX nn) >>= cmpBehavior) s

/-- R208: `CMP $hhll`. -/
def execCmpAbs (w : Word) (s : State) : Result :=
  complete (loadOperand (.absolute w) >>= cmpBehavior) s

/-- R208: `CMP $hhll,X`. -/
def execCmpAbsX (w : Word) (s : State) : Result :=
  complete (loadOperand (.absoluteX w) >>= cmpBehavior) s

/-- R208: `CMP $hhll,Y`. -/
def execCmpAbsY (w : Word) (s : State) : Result :=
  complete (loadOperand (.absoluteY w) >>= cmpBehavior) s

/-- R208: `CMP ($nn,X)`. -/
def execCmpIzX (nn : Byte) (s : State) : Result :=
  complete (loadOperand (.indexedIndirectX nn) >>= cmpBehavior) s

/-- R208: `CMP ($nn),Y`. -/
def execCmpIzY (nn : Byte) (s : State) : Result :=
  complete (loadOperand (.indirectIndexedY nn) >>= cmpBehavior) s

/-- R209, CPX: C, Z, N from `Compare(X, value)`. -/
def cpxBehavior (v : Byte) : Op Unit := modify fun s => s.setP ((compareBytes s.x v).status s.p)

/-- R209: `CPX #$nn`. -/
def execCpxImm (nn : Byte) (s : State) : Result := complete (cpxBehavior nn) s

/-- R209: `CPX $nn`. -/
def execCpxZp (nn : Byte) (s : State) : Result :=
  complete (loadOperand (.zeroPage nn) >>= cpxBehavior) s

/-- R209: `CPX $hhll`. -/
def execCpxAbs (w : Word) (s : State) : Result :=
  complete (loadOperand (.absolute w) >>= cpxBehavior) s

/-- R210, CPY: C, Z, N from `Compare(Y, value)`. -/
def cpyBehavior (v : Byte) : Op Unit := modify fun s => s.setP ((compareBytes s.y v).status s.p)

/-- R210: `CPY #$nn`. -/
def execCpyImm (nn : Byte) (s : State) : Result := complete (cpyBehavior nn) s

/-- R210: `CPY $nn`. -/
def execCpyZp (nn : Byte) (s : State) : Result :=
  complete (loadOperand (.zeroPage nn) >>= cpyBehavior) s

/-- R210: `CPY $hhll`. -/
def execCpyAbs (w : Word) (s : State) : Result :=
  complete (loadOperand (.absolute w) >>= cpyBehavior) s

/-- R211, BIT: Z, V, N from `BitTest(A, value)`. -/
def bitBehavior (v : Byte) : Op Unit := modify fun s => s.setP (bitTest s.a v s.p)

/-- R211: `BIT $nn`. -/
def execBitZp (nn : Byte) (s : State) : Result :=
  complete (loadOperand (.zeroPage nn) >>= bitBehavior) s

/-- R211: `BIT $hhll`. -/
def execBitAbs (w : Word) (s : State) : Result :=
  complete (loadOperand (.absolute w) >>= bitBehavior) s

end Sys2Proof.Machine
end

