-- ==== Sys2Proof/Machine/Dispatch.lean ====
section
/-!
DEFINITION. The dispatch of 40_step_addressing_flags.md R123: one arm per constructor of Instr, each a
direct call of that instruction's meaning. `s.pc` is the address after the instruction.
-/

namespace Sys2Proof.Machine

def exec (i : Instr) (s : State) : Host.Outcome State Fault Refusal :=
  match i with
  | .tax => Sys2Proof.Machine.execTax s
  | .tay => Sys2Proof.Machine.execTay s
  | .txa => Sys2Proof.Machine.execTxa s
  | .tya => Sys2Proof.Machine.execTya s
  | .tsx => Sys2Proof.Machine.execTsx s
  | .txs => Sys2Proof.Machine.execTxs s
  | .inx => Sys2Proof.Machine.execInx s
  | .iny => Sys2Proof.Machine.execIny s
  | .dex => Sys2Proof.Machine.execDex s
  | .dey => Sys2Proof.Machine.execDey s
  | .clc => Sys2Proof.Machine.execClc s
  | .sec => Sys2Proof.Machine.execSec s
  | .cli => Sys2Proof.Machine.execCli s
  | .sei => Sys2Proof.Machine.execSei s
  | .cld => Sys2Proof.Machine.execCld s
  | .sed => Sys2Proof.Machine.execSed s
  | .clv => Sys2Proof.Machine.execClv s
  | .nop => Sys2Proof.Machine.execNop s
  | .ldaImm nn => Sys2Proof.Machine.execLdaImm nn s
  | .ldaZp nn => Sys2Proof.Machine.execLdaZp nn s
  | .ldaZpX nn => Sys2Proof.Machine.execLdaZpX nn s
  | .ldaAbs w => Sys2Proof.Machine.execLdaAbs w s
  | .ldaAbsX w => Sys2Proof.Machine.execLdaAbsX w s
  | .ldaAbsY w => Sys2Proof.Machine.execLdaAbsY w s
  | .ldaIzX nn => Sys2Proof.Machine.execLdaIzX nn s
  | .ldaIzY nn => Sys2Proof.Machine.execLdaIzY nn s
  | .ldxImm nn => Sys2Proof.Machine.execLdxImm nn s
  | .ldxZp nn => Sys2Proof.Machine.execLdxZp nn s
  | .ldxZpY nn => Sys2Proof.Machine.execLdxZpY nn s
  | .ldxAbs w => Sys2Proof.Machine.execLdxAbs w s
  | .ldxAbsY w => Sys2Proof.Machine.execLdxAbsY w s
  | .ldyImm nn => Sys2Proof.Machine.execLdyImm nn s
  | .ldyZp nn => Sys2Proof.Machine.execLdyZp nn s
  | .ldyZpX nn => Sys2Proof.Machine.execLdyZpX nn s
  | .ldyAbs w => Sys2Proof.Machine.execLdyAbs w s
  | .ldyAbsX w => Sys2Proof.Machine.execLdyAbsX w s
  | .adcImm nn => Sys2Proof.Machine.execAdcImm nn s
  | .adcZp nn => Sys2Proof.Machine.execAdcZp nn s
  | .adcZpX nn => Sys2Proof.Machine.execAdcZpX nn s
  | .adcAbs w => Sys2Proof.Machine.execAdcAbs w s
  | .adcAbsX w => Sys2Proof.Machine.execAdcAbsX w s
  | .adcAbsY w => Sys2Proof.Machine.execAdcAbsY w s
  | .adcIzX nn => Sys2Proof.Machine.execAdcIzX nn s
  | .adcIzY nn => Sys2Proof.Machine.execAdcIzY nn s
  | .sbcImm nn => Sys2Proof.Machine.execSbcImm nn s
  | .sbcZp nn => Sys2Proof.Machine.execSbcZp nn s
  | .sbcZpX nn => Sys2Proof.Machine.execSbcZpX nn s
  | .sbcAbs w => Sys2Proof.Machine.execSbcAbs w s
  | .sbcAbsX w => Sys2Proof.Machine.execSbcAbsX w s
  | .sbcAbsY w => Sys2Proof.Machine.execSbcAbsY w s
  | .sbcIzX nn => Sys2Proof.Machine.execSbcIzX nn s
  | .sbcIzY nn => Sys2Proof.Machine.execSbcIzY nn s
  | .andImm nn => Sys2Proof.Machine.execAndImm nn s
  | .andZp nn => Sys2Proof.Machine.execAndZp nn s
  | .andZpX nn => Sys2Proof.Machine.execAndZpX nn s
  | .andAbs w => Sys2Proof.Machine.execAndAbs w s
  | .andAbsX w => Sys2Proof.Machine.execAndAbsX w s
  | .andAbsY w => Sys2Proof.Machine.execAndAbsY w s
  | .andIzX nn => Sys2Proof.Machine.execAndIzX nn s
  | .andIzY nn => Sys2Proof.Machine.execAndIzY nn s
  | .oraImm nn => Sys2Proof.Machine.execOraImm nn s
  | .oraZp nn => Sys2Proof.Machine.execOraZp nn s
  | .oraZpX nn => Sys2Proof.Machine.execOraZpX nn s
  | .oraAbs w => Sys2Proof.Machine.execOraAbs w s
  | .oraAbsX w => Sys2Proof.Machine.execOraAbsX w s
  | .oraAbsY w => Sys2Proof.Machine.execOraAbsY w s
  | .oraIzX nn => Sys2Proof.Machine.execOraIzX nn s
  | .oraIzY nn => Sys2Proof.Machine.execOraIzY nn s
  | .eorImm nn => Sys2Proof.Machine.execEorImm nn s
  | .eorZp nn => Sys2Proof.Machine.execEorZp nn s
  | .eorZpX nn => Sys2Proof.Machine.execEorZpX nn s
  | .eorAbs w => Sys2Proof.Machine.execEorAbs w s
  | .eorAbsX w => Sys2Proof.Machine.execEorAbsX w s
  | .eorAbsY w => Sys2Proof.Machine.execEorAbsY w s
  | .eorIzX nn => Sys2Proof.Machine.execEorIzX nn s
  | .eorIzY nn => Sys2Proof.Machine.execEorIzY nn s
  | .cmpImm nn => Sys2Proof.Machine.execCmpImm nn s
  | .cmpZp nn => Sys2Proof.Machine.execCmpZp nn s
  | .cmpZpX nn => Sys2Proof.Machine.execCmpZpX nn s
  | .cmpAbs w => Sys2Proof.Machine.execCmpAbs w s
  | .cmpAbsX w => Sys2Proof.Machine.execCmpAbsX w s
  | .cmpAbsY w => Sys2Proof.Machine.execCmpAbsY w s
  | .cmpIzX nn => Sys2Proof.Machine.execCmpIzX nn s
  | .cmpIzY nn => Sys2Proof.Machine.execCmpIzY nn s
  | .cpxImm nn => Sys2Proof.Machine.execCpxImm nn s
  | .cpxZp nn => Sys2Proof.Machine.execCpxZp nn s
  | .cpxAbs w => Sys2Proof.Machine.execCpxAbs w s
  | .cpyImm nn => Sys2Proof.Machine.execCpyImm nn s
  | .cpyZp nn => Sys2Proof.Machine.execCpyZp nn s
  | .cpyAbs w => Sys2Proof.Machine.execCpyAbs w s
  | .bitZp nn => Sys2Proof.Machine.execBitZp nn s
  | .bitAbs w => Sys2Proof.Machine.execBitAbs w s
  | .staZp nn => Sys2Proof.Machine.execStaZp nn s
  | .staZpX nn => Sys2Proof.Machine.execStaZpX nn s
  | .staAbs w => Sys2Proof.Machine.execStaAbs w s
  | .staAbsX w => Sys2Proof.Machine.execStaAbsX w s
  | .staAbsY w => Sys2Proof.Machine.execStaAbsY w s
  | .staIzX nn => Sys2Proof.Machine.execStaIzX nn s
  | .staIzY nn => Sys2Proof.Machine.execStaIzY nn s
  | .stxZp nn => Sys2Proof.Machine.execStxZp nn s
  | .stxZpY nn => Sys2Proof.Machine.execStxZpY nn s
  | .stxAbs w => Sys2Proof.Machine.execStxAbs w s
  | .styZp nn => Sys2Proof.Machine.execStyZp nn s
  | .styZpX nn => Sys2Proof.Machine.execStyZpX nn s
  | .styAbs w => Sys2Proof.Machine.execStyAbs w s
  | .incZp nn => Sys2Proof.Machine.execIncZp nn s
  | .incZpX nn => Sys2Proof.Machine.execIncZpX nn s
  | .incAbs w => Sys2Proof.Machine.execIncAbs w s
  | .incAbsX w => Sys2Proof.Machine.execIncAbsX w s
  | .decZp nn => Sys2Proof.Machine.execDecZp nn s
  | .decZpX nn => Sys2Proof.Machine.execDecZpX nn s
  | .decAbs w => Sys2Proof.Machine.execDecAbs w s
  | .decAbsX w => Sys2Proof.Machine.execDecAbsX w s
  | .jmpAbs w => Sys2Proof.Machine.execJmpAbs w s
  | .jmpInd w => Sys2Proof.Machine.execJmpInd w s
  | .aslAcc => Sys2Proof.Machine.execAslAcc s
  | .aslZp nn => Sys2Proof.Machine.execAslZp nn s
  | .aslZpX nn => Sys2Proof.Machine.execAslZpX nn s
  | .aslAbs w => Sys2Proof.Machine.execAslAbs w s
  | .aslAbsX w => Sys2Proof.Machine.execAslAbsX w s
  | .lsrAcc => Sys2Proof.Machine.execLsrAcc s
  | .lsrZp nn => Sys2Proof.Machine.execLsrZp nn s
  | .lsrZpX nn => Sys2Proof.Machine.execLsrZpX nn s
  | .lsrAbs w => Sys2Proof.Machine.execLsrAbs w s
  | .lsrAbsX w => Sys2Proof.Machine.execLsrAbsX w s
  | .rolAcc => Sys2Proof.Machine.execRolAcc s
  | .rolZp nn => Sys2Proof.Machine.execRolZp nn s
  | .rolZpX nn => Sys2Proof.Machine.execRolZpX nn s
  | .rolAbs w => Sys2Proof.Machine.execRolAbs w s
  | .rolAbsX w => Sys2Proof.Machine.execRolAbsX w s
  | .rorAcc => Sys2Proof.Machine.execRorAcc s
  | .rorZp nn => Sys2Proof.Machine.execRorZp nn s
  | .rorZpX nn => Sys2Proof.Machine.execRorZpX nn s
  | .rorAbs w => Sys2Proof.Machine.execRorAbs w s
  | .rorAbsX w => Sys2Proof.Machine.execRorAbsX w s
  | .bcc nn => Sys2Proof.Machine.execBcc nn s
  | .bcs nn => Sys2Proof.Machine.execBcs nn s
  | .beq nn => Sys2Proof.Machine.execBeq nn s
  | .bne nn => Sys2Proof.Machine.execBne nn s
  | .bmi nn => Sys2Proof.Machine.execBmi nn s
  | .bpl nn => Sys2Proof.Machine.execBpl nn s
  | .bvc nn => Sys2Proof.Machine.execBvc nn s
  | .bvs nn => Sys2Proof.Machine.execBvs nn s
  | .pha => Sys2Proof.Machine.execPha s
  | .pla => Sys2Proof.Machine.execPla s
  | .php => Sys2Proof.Machine.execPhp s
  | .plp => Sys2Proof.Machine.execPlp s
  | .jsr w => Sys2Proof.Machine.execJsr w s
  | .rts => Sys2Proof.Machine.execRts s
  | .brk => Sys2Proof.Machine.execBrk s
  | .rti => Sys2Proof.Machine.execRti s

end Sys2Proof.Machine
end

