-- ==== Sys2Proof/Machine/General.lean ====
section
/-!
DEFINITION. `Behavior(e.mnemonic, e.mode, operand, addr, crossed)` of 40_step_addressing_flags.md R120
for any table row: a table may give any mnemonic any mode and any opcode byte (00_scope.md R8,
30_encoding.md R94). For the 151 pairs of R95 it is the meaning of the instruction
(Sys2Proof.Machine.exec), as the laws `exec_eq_complete` and `behavior_eq_operation` show.
-/

namespace Sys2Proof.Machine

/-- A behavior by its capability shape: what the step hands to it (R97, R123). -/
inductive Effect where
  /-- shapes (a) and (d): nothing -/
  | bare (op : Op Unit)
  /-- shape (b): a byte value -/
  | value (f : Byte → Op Unit)
  /-- shape (c): an address -/
  | address (f : Word → Op Unit)
  /-- ASL, LSR, ROL, ROR: shape (a) on the accumulator in Accumulator mode, else shape (c) -/
  | shift (accumulator : Op Unit) (f : Word → Op Unit)

/-- The behavior of each mnemonic (files 41 to 46). -/
def effectOf : Mnemonic → Effect
  | .tax => .bare taxBehavior
  | .tay => .bare tayBehavior
  | .txa => .bare txaBehavior
  | .tya => .bare tyaBehavior
  | .tsx => .bare tsxBehavior
  | .txs => .bare txsBehavior
  | .inx => .bare inxBehavior
  | .iny => .bare inyBehavior
  | .dex => .bare dexBehavior
  | .dey => .bare deyBehavior
  | .clc => .bare clcBehavior
  | .sec => .bare secBehavior
  | .cli => .bare cliBehavior
  | .sei => .bare seiBehavior
  | .cld => .bare cldBehavior
  | .sed => .bare sedBehavior
  | .clv => .bare clvBehavior
  | .nop => .bare nopBehavior
  | .lda => .value ldaBehavior
  | .ldx => .value ldxBehavior
  | .ldy => .value ldyBehavior
  | .adc => .value adcBehavior
  | .sbc => .value sbcBehavior
  | .and => .value andBehavior
  | .ora => .value oraBehavior
  | .eor => .value eorBehavior
  | .cmp => .value cmpBehavior
  | .cpx => .value cpxBehavior
  | .cpy => .value cpyBehavior
  | .bit => .value bitBehavior
  | .sta => .address staBehavior
  | .stx => .address stxBehavior
  | .sty => .address styBehavior
  | .inc => .address incBehavior
  | .dec => .address decBehavior
  | .jmp => .address jmpBehavior
  | .asl => .shift aslAccBehavior aslBehavior
  | .lsr => .shift lsrAccBehavior lsrBehavior
  | .rol => .shift rolAccBehavior rolBehavior
  | .ror => .shift rorAccBehavior rorBehavior
  | .bcc => .value bccBehavior
  | .bcs => .value bcsBehavior
  | .beq => .value beqBehavior
  | .bne => .value bneBehavior
  | .bmi => .value bmiBehavior
  | .bpl => .value bplBehavior
  | .bvc => .value bvcBehavior
  | .bvs => .value bvsBehavior
  | .pha => .bare phaBehavior
  | .pla => .bare plaBehavior
  | .php => .bare phpBehavior
  | .plp => .bare pullStatus
  | .jsr => .address jsrBehavior
  | .rts => .bare rtsBehavior
  | .brk => .bare brkBehavior
  | .rti => .bare returnFromException

/-- Resolution for a behavior that takes nothing: the mode is resolved all the same, its pointer read
and `crossed` set (R125). -/
def resolveOnly (o : Operand) : Op Unit :=
  match addressOf o with
  | none => pure ()
  | some address => do
    let _ ← address
    pure ()

/-- The operation a behavior performs on an operand: resolution, what its shape asks for, then its own
effects (R120, R123). `none` where the mode does not give what the behavior consumes (log 5). -/
def Effect.on (e : Effect) (o : Operand) : Option (Op Unit) :=
  match e with
  | .bare op => some (resolveOnly o >>= fun _ => op)
  | .value f => (valueOf o).map fun value => value >>= f
  | .address f => (addressOf o).map fun address => address >>= f
  | .shift accumulator f =>
    if o = .accumulator then some accumulator
    else (addressOf o).map fun address => address >>= f

/-- The behavior of a mnemonic on an operand. -/
def behavior (m : Mnemonic) (o : Operand) : Option (Op Unit) := (effectOf m).on o

end Sys2Proof.Machine
end

