-- ==== Sys2Proof/Machine/Loop.lean ====
section
/-!
DEFINITION. Everything around the execution of one instruction: interrupt dispatch (60_exceptions.md
R320 to R326), the fetch of an instruction (40_step_addressing_flags.md R120 to R122), the cycle rule
(R160), the fold and the stop conditions (60 R330 to R336), reset (70 R370) and the host's operations
between calls (10_state.md R40, 20_memory.md R61).
-/

namespace Sys2Proof.Machine

/-! ## Counters -/

/-- `cyclesConsumed (both copies) += n` (R322). -/
def ExecutionState.addCycles (e : ExecutionState) (n : Nat) : ExecutionState :=
  { e with cyclesConsumed := e.cyclesConsumed + n }

/-- R333: one step's result folded into one copy. -/
def ExecutionState.fold (e : ExecutionState) (pc0 : Word) (r : StepResult) : ExecutionState where
  cyclesConsumed := e.cyclesConsumed + r.cycles
  instructionsExecuted := e.instructionsExecuted + 1
  unknownOpcodeCount := if r.unknown then e.unknownOpcodeCount + 1 else e.unknownOpcodeCount
  lastOpcode := some r.opcode
  pcBeforeLastOpcode := some pc0

/-- R333, for both copies. -/
def foldResult (pc0 : Word) (r : StepResult) (s : State) : State :=
  { s with call := s.call.fold pc0 r, lifetime := s.lifetime.fold pc0 r }

/-! ## Interrupts -/

/-- The NMI vector (R321). -/
def nmiVector : Word := 0xFFFA#16

/-- The vector BRK and IRQ share (R323). -/
def irqVector : Word := 0xFFFE#16

/-- The reset vector (70 R370). -/
def resetVector : Word := 0xFFFC#16

/-- `ServiceInterrupt(vector)` (R322): the entry, with PC the next instruction's address, and
INT_CYCLES in both cycle counters. -/
def serviceInterrupt (vector : Word) : Op Unit := do
  let s ← get
  enterException s.pc pushedByInterrupt vector
  modify fun s =>
    { s with
      call := s.call.addCycles s.config.intCycles
      lifetime := s.lifetime.addCycles s.config.intCycles }

/-- R321: what servicing an NMI does to the NMI set. -/
def acknowledgeNmi (s : State) : State :=
  match s.config.nmiAck with
  | .clearOnService => { s with nmi := [] }
  | .level => s

/-- R324: every auto-acknowledge source is removed, the others stay. -/
def acknowledgeIrq (s : State) : State := { s with irq := s.irq.filter (fun e => !e.autoAck) }

/-- `Poll()` (R320): at most one interrupt; NMI before IRQ, IRQ only when I is clear. -/
def poll : Op Unit := do
  let s ← get
  if s.nmiLine then do
    serviceInterrupt nmiVector
    modify acknowledgeNmi
  else if s.irqLine && !s.flag .i then do
    serviceInterrupt irqVector
    modify acknowledgeIrq
  else pure ()

/-! ## One iteration -/

/-- The poll, where POLL_POINT names this place of the iteration (R320, R330). -/
def pollAt (place : PollPoint) : Op Unit := do
  let s ← get
  if s.config.pollPoint = place then poll else pure ()

/-- R330 items 1 and 2: the poll under POLL_POINT = before_step, then the BeforeInstruction
observers. The behavior's report is cleared. -/
def beginIteration : Op Unit := do
  pollAt .beforeStep
  let s ← get
  fireObservers .beforeInstruction s.observers.before
  modify fun s => s.setEvents StepEvents.none

/-- What the fetch of a step finds (R120). -/
inductive Fetched where
  /-- the opcode byte is not in the table (R122) -/
  | unknown (opcode : Byte)
  /-- the opcode's row and its mode with the operand bytes -/
  | known (row : TableRow) (o : Operand)

/-- The byte of an F2 instruction (30_encoding.md R91), in its mode. -/
def fetchWith (f : Byte → Operand) : Op Operand := do
  let nn ← fetchByte
  pure (f nn)

/-- The word of an F3 instruction (30_encoding.md R91), low byte first, in its mode. -/
def fetchWordWith (f : Word → Operand) : Op Operand := do
  let ll ← fetchByte
  let hh ← fetchByte
  pure (f (wordOf hh ll))

/-- The operand bytes a mode consumes (R125 to R138). -/
def fetchOperand : Mode → Op Operand
  | .implied => pure .implied
  | .accumulator => pure .accumulator
  | .immediate => fetchWith .immediate
  | .relative => fetchWith .relative
  | .zeroPage => fetchWith fun nn => .memory (.zeroPage nn)
  | .zeroPageX => fetchWith fun nn => .memory (.zeroPageX nn)
  | .zeroPageY => fetchWith fun nn => .memory (.zeroPageY nn)
  | .absolute => fetchWordWith fun w => .memory (.absolute w)
  | .absoluteX => fetchWordWith fun w => .memory (.absoluteX w)
  | .absoluteY => fetchWordWith fun w => .memory (.absoluteY w)
  | .indexedIndirectX => fetchWith fun nn => .memory (.indexedIndirectX nn)
  | .indirectIndexedY => fetchWith fun nn => .memory (.indirectIndexedY nn)
  | .indirect => fetchWordWith fun w => .memory (.indirect w)

/-- R120, FetchOpcode and the operand bytes of R125: the opcode, then, for an opcode in the table, the
operand bytes of its row's mode. Operand bytes are not consumed for an unknown opcode (R122). -/
def fetchInstruction : Op Fetched := do
  let opcode ← fetchByte
  let s ← get
  match findRow s.config.table opcode with
  | none => pure (.unknown opcode)
  | some row => do
    let o ← fetchOperand row.mode
    pure (.known row o)

/-- Dispatch (R123): for a documented pair of mnemonic and mode (30_encoding.md R95) the meaning of
that instruction, for any other pair of a table the behavior on what the mode gives. -/
def perform (row : TableRow) (pc0 : Word) (o : Operand) (s : State) : Result :=
  match row.behavior with
  | .platform _ => .refused (.unspecifiedOpcode row.opcode pc0)
  | .documented m =>
    match Instr.ofParts m o with
    | some i => exec i s
    | none =>
      match behavior m o with
      | some op => complete op s
      | none => .refused (.missingOperand row.opcode pc0)

/-- R160: the row's cycles, its page-cross extra on a crossed page, and the branch penalties of
45_branches.md R250 for a row with the branch mark. R160 adds 1 where the column is 1, and R8 lets the
penalties be any naturals: that an extra above 1 adds its value, and that a table's own branch mark
decides who pays, is the model's choice (DESIGN CHOICE, log 31). -/
def stepCycles (c : Config) (row : TableRow) (e : StepEvents) : Nat :=
  row.cycles + (if e.crossed then row.pageCrossExtra else 0) +
    (if row.branchExtra && e.branchTaken then c.branchTakenCycles else 0) +
    (if row.branchExtra && e.branchOtherPage then c.branchPageCycles else 0)

/-- The stop conditions of R335 that hold, against the call-scoped counters; `pc` is PC after the
step, `pc0` the address the opcode was fetched from. -/
def stopConditions (o : ExecutionOptions) (call : ExecutionState) (pc pc0 : Word) (opcode : Byte) :
    List StopReason :=
  (if o.cycleBudget.any (fun n => decide (n ≤ call.cyclesConsumed)) then [.cycleBudget] else []) ++
  (if o.maxNumberOfInstructions.any (fun n => decide (n ≤ call.instructionsExecuted)) then
    [.instructionBudget] else []) ++
  (if o.stopAtPC == some pc then [.pcReached] else []) ++
  (if o.stopAfterInstructionAtPC == some pc0 then [.instructionAtPcExecuted] else []) ++
  (if o.stopAfterOpcode == some opcode then [.opcodeExecuted] else []) ++
  (if o.stopAfterOpcodes.contains opcode then [.opcodeInSet] else [])

/-- R330 item 7, R336: the call returns when any condition holds; the reasons are kept. -/
def evaluateStop (pc0 : Word) (opcode : Byte) (s : State) : State :=
  match stopConditions s.options s.call s.pc pc0 opcode with
  | [] => s
  | reasons => { s with inCall := false, stopReasons := reasons }

/-- R330 item 6, R302: for an unknown opcode, the unknown-opcode observers, and the fatal policy. -/
def reportUnknown (pc0 : Word) (r : StepResult) : Op Unit :=
  if r.unknown then do
    let s ← get
    fireObservers (.unknownOpcode r.opcode) s.observers.unknown
    let s ← get
    if s.options.unknownInstructionIsFatal then raise (.unknownOpcode r.opcode pc0) else pure ()
  else pure ()

/-- R330 items 4 to 7: fold, the poll under POLL_POINT = after_step, the AfterInstruction observers,
the unknown-opcode policy, the stop conditions. -/
def concludeStep (pc0 : Word) (r : StepResult) : Op Unit := do
  modify (foldResult pc0 r)
  pollAt .afterStep
  let s ← get
  fireObservers .afterInstruction s.observers.after
  reportUnknown pc0 r
  modify (evaluateStop pc0 r.opcode)

/-- What the step does with what it fetched, from the state after the fetch: the row's behavior, or
the unknown-opcode result of one cycle (R122), then items 4 to 7 of R330. -/
def runFetched (pc0 : Word) (found : Fetched) (s : State) : Result :=
  match found with
  | .unknown opcode => complete (concludeStep pc0 ⟨opcode, 1, true⟩) s
  | .known row o =>
    match perform row pc0 o s with
    | .next t => complete (concludeStep pc0 ⟨row.opcode, stepCycles t.config row t.events, false⟩) t
    | .fault f => .fault f
    | .refused r => .refused r

/-- One iteration of the run loop (R330). -/
def iteration (s : State) : Result :=
  match beginIteration s with
  | .error f => .fault f
  | .ok (_, s1) =>
    match fetchInstruction s1 with
    | .error f => .fault f
    | .ok (found, s2) => runFetched s1.pc found s2

/-! ## The host between calls -/

/-- The start address of a reset: the explicit one, or the word at the reset vector (70 R370). -/
def resetTarget (start : Option Word) : Op Word :=
  match start with
  | none => memReadWord resetVector
  | some target => pure target

/-- `Reset(start)` (70 R370): PC from the vector or the explicit start address; RESET_STATE may pin
other registers (D11), by default nothing else is written. That the vector is read before a pinned
register is written, so that a faulting read leaves the registers as they were, is the model's choice
(DESIGN CHOICE, log 33). -/
def resetMachine (start : Option Word) : Op Unit := do
  let target ← resetTarget start
  modify fun s => s.setPc target
  modify fun s =>
    { s with
      a := s.config.resetValues.a.getD s.a
      x := s.config.resetValues.x.getD s.x
      y := s.config.resetValues.y.getD s.y
      sp := s.config.resetValues.sp.getD s.sp
      p := s.config.resetValues.p.getD s.p }

/-- `Run(options)` (R330): a call begins, with a fresh call-scoped ExecutionState (R36). -/
def beginCall (options : ExecutionOptions) (s : State) : State :=
  { s with options := options, call := ExecutionState.zero, inCall := true, stopReasons := [] }

/-- R61: an address past `0xFFFF` does not exist, and bulk access does not wrap (log 10). -/
def bulkAddress (addr : Nat) (kind : AccessKind) : Op Word := do
  let s ← get
  if addr < 65536 then pure (BitVec.ofNat 16 addr) else raise (.invalidMemoryAccess addr kind s.pc)

/-- `BulkRead(a, n)` (R61): ascending addresses. -/
def bulkRead (addr : Nat) : Nat → Op (List Byte)
  | 0 => pure []
  | n + 1 => do
    let a ← bulkAddress addr .read
    let b ← memRead a
    let rest ← bulkRead (addr + 1) n
    pure (b :: rest)

/-- `BulkWrite(a, bytes)` (R61): ascending addresses. -/
def bulkWrite (addr : Nat) : List Byte → Op Unit
  | [] => pure ()
  | b :: rest => do
    let a ← bulkAddress addr .write
    memWrite a b
    bulkWrite (addr + 1) rest

/-- R341: registers one more observer of a kind. -/
def Observers.add (o : Observers) : ObserverKind → Observers
  | .beforeInstruction => { o with before := o.before + 1 }
  | .afterInstruction => { o with after := o.after + 1 }
  | .unknownOpcode => { o with unknown := o.unknown + 1 }

/-- One operation of the host between calls (10_state.md R40, R340). What a read returns to the host
is kept in `hostBytes`. -/
def hostOperation : HostOp → Op Unit
  | .act action => applyAction action
  | .setPc v => modify fun s => s.setPc v
  | .setSp v => modify fun s => s.setSp v
  | .setA v => modify fun s => s.setA v
  | .setX v => modify fun s => s.setX v
  | .setY v => modify fun s => s.setY v
  | .setP v => modify fun s => s.setP v
  | .setFlag f v => modify fun s => s.putFlag f v
  | .read a => do
    let b ← memRead a
    modify fun s => { s with hostBytes := [b] }
  | .write a v => memWrite a v
  | .readWord a => do
    let w ← memReadWord a
    modify fun s => { s with hostBytes := [lowByte w, highByte w] }
  | .writeWord a w => memWriteWord a w
  | .bulkRead a n => do
    let bytes ← bulkRead a n
    modify fun s => { s with hostBytes := bytes }
  | .bulkWrite a bytes => bulkWrite a bytes
  | .addObserver kind => modify fun s => { s with observers := s.observers.add kind }
  | .reset start => resetMachine start
  | .run options => modify (beginCall options)

/-- Between calls the core is not running (R347): the host's next pending operation is performed, and
with none pending everything survives as it is. -/
def hostTurn (s : State) : Result :=
  match s.hostQueue with
  | [] => .next s
  | op :: rest => complete (hostOperation op) { s with hostQueue := rest }

/-! ## Setting a machine up (20_memory.md R51, 60_exceptions.md R304, 70 R372, R373) -/

/-- Registers one opcode: "Registration must reject duplicate opcode bytes" (30_encoding.md R94). Setup
raises the reason alone: no machine exists yet that a fault could leave (log 9). -/
def registerOpcode (table : List TableRow) (row : TableRow) : Except ConfigError (List TableRow) :=
  match findRow table row.opcode with
  | some _ => .error .duplicateOpcode
  | none => .ok (table ++ [row])

/-- Registers opcodes in order. -/
def registerAll (table : List TableRow) : List TableRow → Except ConfigError (List TableRow)
  | [] => .ok table
  | row :: rest =>
    match registerOpcode table row with
    | .error f => .error f
    | .ok t => registerAll t rest

/-- A machine at construction (R51, R372): everything unmapped, `cfg = 0`, registry empty, counters
zero, no call; the registers are the launch values given (D11). Zero-sized memory, no configuration,
a duplicate opcode, or more than 64 KB is a configuration error (R304, log 9). Which reason is raised
where several hold no rule says: the sizes first, the table last, is the model's choice (DESIGN CHOICE,
log 34). A row of 0 cycles, or of a size that is not its mode's, is accepted, which is the model's choice
too (DESIGN CHOICE, log 36). -/
def construct (c : Config) (pc : Word) (sp a x y p : Byte) : Except ConfigError State :=
  if c.memSize = 0 then .error .zeroSizedMemory
  else if 65536 < c.memSize then .error .memoryTooLarge
  else if c.numConfigs = 0 then .error .noConfigurations
  else
    match registerAll [] c.table with
    | .error f => .error f
    | .ok table =>
      .ok { config := { c with table := table }, pc := pc, sp := sp, a := a, x := x, y := y, p := p,
            mem := { cells := [], maps := [], segments := [], cfg := 0 }, irq := [], nmi := [],
            call := ExecutionState.zero, lifetime := ExecutionState.zero,
            options := ExecutionOptions.none, inCall := false, stopReasons := [],
            observers := ⟨0, 0, 0⟩, events := StepEvents.none, hostQueue := [], hostBytes := [],
            replies := [], hookCalls := [], freeCount := 0 }

/-! ## Placing an instruction where the next step fetches it -/

/-- Puts a byte where address `a` reads: in the backing byte it reads from, or, where it reads from
none, in a fresh RAM byte mapped at `a` in the current configuration (log 21). -/
def placeByte (s : State) (a : Word) (v : Byte) : State :=
  match s.readSlot a with
  | some (.byte k) => s.setMem (s.mem.store k v)
  | _ =>
    let k := 16777216 + a.toNat
    s.setMem ((s.mem.install
      { config := s.mem.cfg, base := a.toNat, length := 1, rd := some (.bytes k), wr := some (.bytes k) }).store k v)

/-- Bytes at ascending addresses. -/
def placeBytes (s : State) (a : Word) : List Byte → State
  | [] => s
  | b :: rest => placeBytes (placeByte s a b) (a + 1) rest

end Sys2Proof.Machine
end

