-- ==== Sys2Proof/Machine/Step.lean ====
section
/-!
DEFINITION. One step of the machine: an iteration of the run loop while a call is in progress
(60_exceptions.md R330), else the host's turn (R340, R347). All it calls stands in Machine/Loop.lean.
-/

namespace Sys2Proof.Machine

def step (s : State) : Host.Outcome State Fault Refusal :=
  if s.inCall then iteration s else hostTurn s

/-- `s` with an instruction whose bits are `w` stored where the next step fetches, a call in progress
and no interrupt pending before it. -/
def State.withFetchWord (s : State) (nbits w : Nat) : State :=
  placeBytes { s with inCall := true, irq := [], nmi := [] } s.pc (tableBytes nbits w)

end Sys2Proof.Machine
end

