-- ==== Sys2Proof/WellFormed.lean ====
section
/-!
DEFINITION. Well-formed syntax and parameters. "Every bit pattern of an operand byte is legal for
every instruction" (30_encoding.md R99), and an operand is a byte or a word by its type, so the one
check on an instruction is that the machine's table (R94) registers its opcode byte as that
instruction. The parameters are checked against their ranges in 00_scope.md R8.
-/

namespace Sys2Proof

/-- The table registers the instruction's opcode byte with its behavior and its mode. -/
def Instr.wellFormed (table : List TableRow) (i : Instr) : Bool :=
  match findRow table i.opcode with
  | none => false
  | some row => row.behavior == .documented i.mnemonic && row.mode == i.operand.mode

/-- A row's size is 1 + the operand count of its mode (R90), and its instruction costs at least one
cycle (40_step_addressing_flags.md R124). -/
def TableRow.wellFormed (row : TableRow) : Bool :=
  decide (row.size = row.mode.size) && decide (1 ≤ row.cycles)

/-- The parameters lie in the ranges of R8: `MEM_SIZE` in 1 .. 65536, `NUM_CONFIGS >= 1`, a
duplicate-free table (R94) of well-formed rows. -/
def Config.wellFormed (c : Config) : Bool :=
  decide (1 ≤ c.memSize) && decide (c.memSize ≤ 65536) && decide (1 ≤ c.numConfigs) &&
    tableUnique c.table && c.table.all TableRow.wellFormed

end Sys2Proof
end

