-- ==== Sys2Proof/Safety.lean ====
section
/-!
DEFINITION. What counts as a safe run, the machine's invariant, and the conditions on states that
the statements are made under: plain memory, memory that is RAM throughout, quiet states.
-/

namespace Sys2Proof.Machine

/-! ## Safe steps and runs -/

/-- The step neither faults nor is refused. -/
def SafeStep (s : State) : Prop := ∃ t, step s = .next t

/-- `n` steps from `s` end in `t`. -/
inductive Steps : Nat → State → State → Prop where
  | none (s : State) : Steps 0 s s
  | more {n : Nat} {s t u : State} : step s = .next t → Steps n t u → Steps (n + 1) s u

/-- A state from which no number of steps meets a fault or a refusal. -/
def SafeRun (s : State) : Prop := ∀ n t, Steps n s t → SafeStep t

/-! ## Plain memory -/

/-- The backing is no device hook. -/
def Backing.plain : Backing → Bool
  | .bytes _ => true
  | .segment _ => true
  | .device _ => false

/-- No mapping is a device hook: every access acts on backing bytes only (20_memory.md R66). -/
def Memory.plain (m : Memory) : Bool :=
  m.maps.all fun r => r.rd.all Backing.plain && r.wr.all Backing.plain

/-- Every address reads from and writes to a backing byte of the current configuration, as on the
platform of 20_memory.md R76. -/
def State.AllRam (s : State) : Prop :=
  ∀ a : Word, (∃ k, s.readSlot a = some (.byte k)) ∧ (∃ k, s.writeSlot a = some (.byte k))

/-- Address `a` reads from and writes to backing byte `k`: plain RAM. -/
def State.RamAt (s : State) (a : Word) (k : Nat) : Prop :=
  s.readSlot a = some (.byte k) ∧ s.writeSlot a = some (.byte k)

/-- `bytes` stand at ascending addresses from `a` on, readable without side effect. -/
def State.BytesAt (s : State) (a : Word) (bytes : List Byte) : Prop :=
  ∀ k, k < bytes.length → s.peek (a + BitVec.ofNat 16 k) = bytes[k]?

/-! ## Quiet states -/

/-- No interrupt is taken by a poll of this state (60_exceptions.md R320). -/
def State.NoInterrupt (s : State) : Prop := s.nmi = [] ∧ (s.irq = [] ∨ s.flag .i = true)

/-- No observer is registered (60_exceptions.md R341). -/
def State.NoObservers (s : State) : Prop := s.observers = ⟨0, 0, 0⟩

/-! ## What stays -/

/-- `t` differs from `s` only in what a hook may change (60_exceptions.md R343): memory, mappings,
configuration index, interrupt registry, and the model's record of hook calls, replies and what the
host has read. -/
def SameButHooks (s t : State) : Prop :=
  t = { s with mem := t.mem, irq := t.irq, nmi := t.nmi, hostBytes := t.hostBytes, replies := t.replies,
               hookCalls := t.hookCalls, freeCount := t.freeCount }

/-- `t` differs from `s` only in the processor registers, the backing bytes and the transient report
of a behavior: what a program's instruction can change where no device is touched. -/
def SameButProgram (s t : State) : Prop :=
  t = { s with pc := t.pc, sp := t.sp, a := t.a, x := t.x, y := t.y, p := t.p,
               mem := { s.mem with cells := t.mem.cells }, events := t.events }

/-- Every address reads as before. -/
def SameReads (s t : State) : Prop := ∀ a : Word, t.peek a = s.peek a

/-- The flags other than those listed are unchanged. -/
def SameFlagsBut (flags : List Flag) (s t : State) : Prop :=
  ∀ f : Flag, f ∉ flags → t.flag f = s.flag f

/-! ## Comparing two runs -/

/-- A fault with the state it leaves changed. -/
def Fault.mapState (f : State → State) : Fault → Fault
  | .invalidMemoryAccess addr kind pc t => .invalidMemoryAccess addr kind pc (f t)
  | .unknownOpcode opcode pc t => .unknownOpcode opcode pc (f t)
  | .configuration reason t => .configuration reason (f t)

/-- A result with its state changed, the next one or the one a fault leaves. -/
def mapResult (f : State → State) : Result → Result
  | .next t => .next (f t)
  | .fault r => .fault (r.mapState f)
  | .refused r => .refused r

/-- The state with the stored Break and Unused bits that `m` selects turned over (10_state.md R29,
R30). -/
def State.flipReserved (m : Byte) (s : State) : State := s.setP (s.p ^^^ (m &&& 0x30#8))

/-- The state with another interrupt registry (10_state.md R35). -/
def State.withRegistry (irq : List IrqSource) (nmi : List String) (s : State) : State :=
  { s with irq := irq, nmi := nmi }

/-! ## The invariant -/

/-- A backing names an existing segment. -/
def Backing.known (segments : List Segment) : Backing → Bool
  | .bytes _ => true
  | .segment id => decide (id < segments.length)
  | .device _ => true

/-- What every step keeps: the memory's canonical form (log 2), parameters in range (00_scope.md R8),
the configuration index in range (10_state.md R38), mappings inside MEM_SIZE and NUM_CONFIGS
(20_memory.md R56, R60), each segment's active bank in range (R62), a registry without repeated names
(10_state.md R35), counters in order (60_exceptions.md R333), no stop reason during a call (R336). -/
structure State.Inv (s : State) : Prop where
  memory : s.mem.wf = true
  config : s.config.wellFormed = true
  cfg : s.mem.cfg < s.config.numConfigs
  maps : ∀ r ∈ s.mem.maps, r.config < s.config.numConfigs ∧ r.base + r.length ≤ s.config.memSize ∧
    r.rd.all (Backing.known s.mem.segments) = true ∧ r.wr.all (Backing.known s.mem.segments) = true
  segments : ∀ g ∈ s.mem.segments, g.active < g.banks.length
  irq : (s.irq.map IrqSource.name).Nodup
  nmi : s.nmi.Nodup
  callCounts : s.call.unknownOpcodeCount ≤ s.call.instructionsExecuted ∧
    s.call.instructionsExecuted ≤ s.call.cyclesConsumed
  lifetimeCounts : s.call.unknownOpcodeCount ≤ s.lifetime.unknownOpcodeCount ∧
    s.call.instructionsExecuted ≤ s.lifetime.instructionsExecuted ∧
    s.call.cyclesConsumed ≤ s.lifetime.cyclesConsumed
  running : s.inCall = true → s.stopReasons = []

/-! ## Expected table rows (40_step_addressing_flags.md R160, R161) -/

/-- The mnemonics whose indexed reads pay on a page crossing (R160). -/
def paysOnCrossing (m : Mnemonic) : Bool :=
  [Mnemonic.lda, .ldx, .ldy, .adc, .sbc, .and, .ora, .eor, .cmp].contains m

/-- The mnemonics of the stores (R161). -/
def isStore (m : Mnemonic) : Bool := [Mnemonic.sta, .stx, .sty].contains m

/-- The mnemonics that read, modify and write memory (R161). -/
def isReadModifyWrite (m : Mnemonic) : Bool :=
  [Mnemonic.inc, .dec, .asl, .lsr, .rol, .ror].contains m

/-- The default cycles by mode and class, the table of R161. -/
def classCycles (m : Mnemonic) : Operand → Nat
  | .implied =>
    if m = .brk then 7 else if [Mnemonic.rts, .rti].contains m then 6
    else if [Mnemonic.pla, .plp].contains m then 4 else if [Mnemonic.pha, .php].contains m then 3 else 2
  | .accumulator => 2
  | .immediate _ => 2
  | .relative _ => 2
  | .memory (.indirect _) => 5
  | .memory (.absolute _) =>
    if m = .jmp then 3 else if m = .jsr then 6 else if isReadModifyWrite m then 6 else 4
  | .memory (.zeroPage _) => if isReadModifyWrite m then 5 else 3
  | .memory (.zeroPageX _) => if isReadModifyWrite m then 6 else 4
  | .memory (.zeroPageY _) => 4
  | .memory (.absoluteX _) => if isReadModifyWrite m then 7 else if isStore m then 5 else 4
  | .memory (.absoluteY _) => if isStore m then 5 else 4
  | .memory (.indexedIndirectX _) => 6
  | .memory (.indirectIndexedY _) => if isStore m then 6 else 5

/-- The operand is in a mode where an indexed read pays on crossing (R160). -/
def canCross : Operand → Bool
  | .memory (.absoluteX _) => true
  | .memory (.absoluteY _) => true
  | .memory (.indirectIndexedY _) => true
  | _ => false

/-- The operand is the Relative operand of a branch (R129). -/
def isRelative : Operand → Bool
  | .relative _ => true
  | _ => false

/-- A row of a rule's table: the instruction's opcode byte, length, default cycles and page-cross
extra (30_encoding.md R102), in a default row that names its mnemonic and mode. -/
def TableSays (i : Instr) (opcode : Byte) (length cycles pageCrossExtra : Nat) : Prop :=
  i.opcode = opcode ∧ i.length = length ∧
    findRow defaultTable opcode = some ⟨opcode, .documented i.mnemonic, i.operand.mode, length, cycles,
      pageCrossExtra, isRelative i.operand⟩

end Sys2Proof.Machine
end

