-- ==== Sys2Proof/Certificates/Slice0/Obligations.lean ====
section
/-!
DEFINITION. The statements about the machine. Each docstring names the rules of spec/ it formalises.
`exec i s` is the meaning of instruction `i` in the state after its bytes were fetched: `s.pc` is the
address after the instruction (10_state.md R33).
-/

open Sys2Proof Sys2Proof.Machine

/-! ## Encoding (30_encoding.md) -/

/-- Decoding the bytes of an instruction gives the instruction back, with every operand, and
whatever decodes is the encoding of what it decodes to (R90 to R93). Rests on what the spec marks as
its own: general knowledge and D1 for the opcode bytes of R95. -/
def Obligations.DecodeAndEncodeAgree : Prop :=
  (∀ (i : Instr) (rest : List Byte), decode (encode i ++ rest) = .ok (i, rest)) ∧
  (∀ (bytes rest : List Byte) (i : Instr), decode bytes = .ok (i, rest) → bytes = encode i ++ rest)

/-- R98: exactly the 105 listed bytes spell no instruction. Rests on what the spec marks as its own:
D2 and general knowledge (R98). -/
def Obligations.UnknownBytesAreTheListedOnes : Prop :=
  ∀ (op : Byte) (rest : List Byte),
    decode (op :: rest) = .error (.unknownOpcode op) ↔
      op ∈ [0x02#8, 0x03#8, 0x04#8, 0x07#8, 0x0B#8, 0x0C#8, 0x0F#8, 0x12#8, 0x13#8, 0x14#8, 0x17#8,
        0x1A#8, 0x1B#8, 0x1C#8, 0x1F#8, 0x22#8] ++
        [0x23#8, 0x27#8, 0x2B#8, 0x2F#8, 0x32#8, 0x33#8, 0x34#8, 0x37#8, 0x3A#8, 0x3B#8, 0x3C#8,
        0x3F#8, 0x42#8, 0x43#8, 0x44#8, 0x47#8] ++
        [0x4B#8, 0x4F#8, 0x52#8, 0x53#8, 0x54#8, 0x57#8, 0x5A#8, 0x5B#8, 0x5C#8, 0x5F#8, 0x62#8,
        0x63#8, 0x64#8, 0x67#8, 0x6B#8, 0x6F#8] ++
        [0x72#8, 0x73#8, 0x74#8, 0x77#8, 0x7A#8, 0x7B#8, 0x7C#8, 0x7F#8, 0x80#8, 0x82#8, 0x83#8,
        0x87#8, 0x89#8, 0x8B#8, 0x8F#8, 0x92#8] ++
        [0x93#8, 0x97#8, 0x9B#8, 0x9C#8, 0x9E#8, 0x9F#8, 0xA3#8, 0xA7#8, 0xAB#8, 0xAF#8, 0xB2#8,
        0xB3#8, 0xB7#8, 0xBB#8, 0xBF#8, 0xC2#8] ++
        [0xC3#8, 0xC7#8, 0xCB#8, 0xCF#8, 0xD2#8, 0xD3#8, 0xD4#8, 0xD7#8, 0xDA#8, 0xDB#8, 0xDC#8,
        0xDF#8, 0xE2#8, 0xE3#8, 0xE7#8, 0xEB#8] ++
        [0xEF#8, 0xF2#8, 0xF3#8, 0xF4#8, 0xF7#8, 0xFA#8, 0xFB#8, 0xFC#8, 0xFF#8]

/-- The example words of R100 decode to the instructions they stand for: one per addressing mode.
Rests on what the spec marks as its own: general knowledge (R100). -/
def Obligations.ExampleWordsDecode : Prop :=
  decodeTableWord 8 0xE8 = some .inx ∧ decodeTableWord 8 0x0A = some .aslAcc ∧
  decodeTableWord 16 0x10A9 = some (.ldaImm 0x10#8) ∧ decodeTableWord 16 0x10A5 = some (.ldaZp 0x10#8) ∧
  decodeTableWord 16 0x10B5 = some (.ldaZpX 0x10#8) ∧ decodeTableWord 16 0x10B6 = some (.ldxZpY 0x10#8) ∧
  decodeTableWord 24 0x1234AD = some (.ldaAbs 0x1234#16) ∧
  decodeTableWord 24 0x1234BD = some (.ldaAbsX 0x1234#16) ∧
  decodeTableWord 24 0x1234B9 = some (.ldaAbsY 0x1234#16) ∧
  decodeTableWord 16 0x10A1 = some (.ldaIzX 0x10#8) ∧ decodeTableWord 16 0x10B1 = some (.ldaIzY 0x10#8) ∧
  decodeTableWord 24 0x30FF6C = some (.jmpInd 0x30FF#16) ∧
  decodeTableWord 16 0xFBD0 = some (.bne 0xFB#8)

/-- R160, R161: the default row of every instruction has its mnemonic, mode and length, the cycles
of its class, the page-cross extra of the 23 indexed reads and of no other, and the branch mark of
the eight branches; the penalties and INT_CYCLES have their defaults. A step costs its row's cycles,
the row's extra exactly when a page was crossed, and the branch penalties of a row with the branch
mark; that an extra above 1 adds its value, and that a table's own branch mark decides, is the
model's choice (log 31). Rests on what the spec marks as its own: general knowledge, D6 and D7
(R160, R161, R322), taken up in log 17, log 18. Rests on the model's choice: log 31. -/
def Obligations.DefaultCyclesFollowTheClassTable : Prop :=
  (∀ i : Instr, findRow Config.default.table i.opcode =
    some ⟨i.opcode, .documented i.mnemonic, i.operand.mode, i.length, classCycles i.mnemonic i.operand,
      if paysOnCrossing i.mnemonic && canCross i.operand then 1 else 0, isRelative i.operand⟩) ∧
  (∀ (c : Config) (row : TableRow) (e : StepEvents), stepCycles c row e =
    row.cycles + e.crossed.toNat * row.pageCrossExtra +
      (row.branchExtra && e.branchTaken).toNat * c.branchTakenCycles +
      (row.branchExtra && e.branchOtherPage).toNat * c.branchPageCycles) ∧
  Config.default.branchTakenCycles = 1 ∧ Config.default.branchPageCycles = 1 ∧
  Config.default.intCycles = 7 ∧ Config.default.table.length = 151 ∧
  (Config.default.table.filter fun row => row.pageCrossExtra == 1).length = 23

/-! ## Status register and flag helpers (10_state.md R24, 40_step_addressing_flags.md R140 to R148) -/

/-- R24: `P` is its eight bits at their positions; each can be read and written alone, by the host
too. -/
def Obligations.StatusRegisterPacksEightFlags : Prop :=
  (∀ p : Byte, p.toNat = (getFlag .n p).toNat * 128 + (getFlag .v p).toNat * 64 +
    (getFlag .u p).toNat * 32 + (getFlag .b p).toNat * 16 + (getFlag .d p).toNat * 8 +
    (getFlag .i p).toNat * 4 + (getFlag .z p).toNat * 2 + (getFlag .c p).toNat) ∧
  (∀ (f g : Flag) (b : Bool) (p : Byte),
    getFlag g (putFlag f b p) = if g = f then b else getFlag g p) ∧
  (∀ (f : Flag) (b : Bool) (s : State),
    hostOperation (.setFlag f b) s = .ok ((), { s with p := putFlag f b s.p }))

/-- R141: the byte, C, Z, N from the raw sum; V in its two forms. -/
def Obligations.AddWithCarryFollowsTheRawSum : Prop :=
  ∀ (a b : Byte) (cin : Bool),
    let raw := a.toNat + b.toNat + cin.toNat
    let r := addWithCarry a b cin
    r.value.toNat = raw % 256 ∧ r.carry = decide (256 ≤ raw) ∧ r.zero = decide (raw % 256 = 0) ∧
    r.negative = r.value.getLsbD 7 ∧
    r.overflow = (a.getLsbD 7 == b.getLsbD 7 && r.value.getLsbD 7 != a.getLsbD 7) ∧
    r.overflow = ((a ^^^ r.value) &&& (b ^^^ r.value) &&& 0x80#8 != 0x00#8)

/-- R142: subtraction is addition of the complement; the byte is `a - b - (1 - cin)` and C says no
borrow. Rests on what the spec marks as its own: its [derived] reading of V (R142). -/
def Obligations.SubtractWithCarryBorrows : Prop :=
  ∀ (a b : Byte) (cin : Bool),
    let r := subtractWithCarry a b cin
    r = addWithCarry a (BitVec.ofNat 8 (255 - b.toNat)) cin ∧
    r.value = a - b - BitVec.ofNat 8 (1 - cin.toNat) ∧
    r.carry = decide (b.toNat + (1 - cin.toNat) ≤ a.toNat)

/-- R144 to R147: the shifted byte, the carry, and Z and N of the byte; nine ROLs restore byte and
Carry (44_shift_rotate.md R242), and ROR undoes ROL. Rests on what the spec marks as its own:
general knowledge that ASL goes toward bit 7 (R144) and for the directions of R242. -/
def Obligations.ShiftAndRotateHelpers : Prop :=
  (∀ (v : Byte) (c : Bool),
    (shiftLeft v c).value.toNat = v.toNat * 2 % 256 ∧ (shiftLeft v c).carry = v.getLsbD 7 ∧
    (shiftRight v c).value.toNat = v.toNat / 2 ∧ (shiftRight v c).carry = v.getLsbD 0 ∧
    (shiftRight v c).value.getLsbD 7 = false ∧
    (rotateLeft v c).value.toNat = v.toNat * 2 % 256 + c.toNat ∧
    (rotateLeft v c).carry = v.getLsbD 7 ∧
    (rotateRight v c).value.toNat = v.toNat / 2 + c.toNat * 128 ∧
    (rotateRight v c).carry = v.getLsbD 0 ∧ (rotateRight v c).value.getLsbD 7 = c) ∧
  (∀ (r : ShiftResult) (p : Byte), getFlag .c (r.status p) = r.carry ∧
    getFlag .z (r.status p) = (r.value == 0x00#8) ∧ getFlag .n (r.status p) = r.value.getLsbD 7 ∧
    ∀ f : Flag, f ≠ .c → f ≠ .z → f ≠ .n → getFlag f (r.status p) = getFlag f p) ∧
  (∀ (v : Byte) (c : Bool),
    rotateRight (rotateLeft v c).value (rotateLeft v c).carry = ⟨v, c⟩ ∧
    Nat.repeat (fun r : ShiftResult => rotateLeft r.value r.carry) 9 ⟨v, c⟩ = ⟨v, c⟩)

/-- R140, R143, R148: SetZN, the unsigned Compare and BitTest write the flags they name, from the bytes
they name, and no other flag. -/
def Obligations.FlagHelpersWriteTheirFlags : Prop :=
  (∀ v p : Byte, getFlag .z (withZN v p) = (v == 0x00#8) ∧ getFlag .n (withZN v p) = v.getLsbD 7 ∧
    ∀ f : Flag, f ≠ .z → f ≠ .n → getFlag f (withZN v p) = getFlag f p) ∧
  (∀ (reg v p q : Byte), q = (compareBytes reg v).status p →
    getFlag .c q = decide (v.toNat ≤ reg.toNat) ∧ getFlag .z q = decide (reg = v) ∧
    getFlag .n q = (reg - v).getLsbD 7 ∧
    ∀ f : Flag, f ≠ .c → f ≠ .z → f ≠ .n → getFlag f q = getFlag f p) ∧
  (∀ a m p : Byte, getFlag .z (bitTest a m p) = ((a &&& m) == 0x00#8) ∧
    getFlag .v (bitTest a m p) = m.getLsbD 6 ∧ getFlag .n (bitTest a m p) = m.getLsbD 7 ∧
    ∀ f : Flag, f ≠ .z → f ≠ .v → f ≠ .n → getFlag f (bitTest a m p) = getFlag f p)

/-! ## Memory (20_memory.md) -/

/-- R52: a read at or above MEM_SIZE or without a read-hook faults; from a backing byte it answers
the byte and changes nothing; from a device it is one invocation of the hook. Rests on what the spec
marks as its own: D14, D28 and D30 (R52, R303). -/
def Obligations.ReadInvokesTheReadHook : Prop :=
  ∀ (s : State) (a : Word),
    (s.config.memSize ≤ a.toNat → memRead a s = .error (.invalidMemoryAccess a.toNat .read s.pc s)) ∧
    (s.mem.readSlot a.toNat = none →
      memRead a s = .error (.invalidMemoryAccess a.toNat .read s.pc s)) ∧
    (∀ k, a.toNat < s.config.memSize → s.mem.readSlot a.toNat = some (.byte k) →
      memRead a s = .ok (s.mem.byteAt k, s)) ∧
    (∀ port, a.toNat < s.config.memSize → s.mem.readSlot a.toNat = some (.device port) →
      memRead a s = invokeHook (.read port a) s)

/-- R53: a write at or above MEM_SIZE or without any hook faults; to a backing byte it stores it and
changes nothing else; to a device it is one invocation of the hook with the byte; where there is a
read-hook only, ROM_WRITE_POLICY decides. Rests on what the spec marks as its own: D13 (R53), taken
up in log 16. -/
def Obligations.WriteInvokesTheWriteHook : Prop :=
  ∀ (s : State) (a : Word) (v : Byte),
    (s.config.memSize ≤ a.toNat →
      memWrite a v s = .error (.invalidMemoryAccess a.toNat .write s.pc s)) ∧
    (s.mem.readSlot a.toNat = none → s.mem.writeSlot a.toNat = none →
      memWrite a v s = .error (.invalidMemoryAccess a.toNat .write s.pc s)) ∧
    (∀ k, a.toNat < s.config.memSize → s.mem.writeSlot a.toNat = some (.byte k) →
      memWrite a v s = .ok ((), { s with mem := s.mem.store k v })) ∧
    (∀ port, a.toNat < s.config.memSize → s.mem.writeSlot a.toNat = some (.device port) →
      (∀ b t, invokeHook (.write port a v) s = .ok (b, t) → memWrite a v s = .ok ((), t)) ∧
      (∀ f, invokeHook (.write port a v) s = .error f → memWrite a v s = .error f)) ∧
    (a.toNat < s.config.memSize → s.mem.writeSlot a.toNat = none → s.mem.readSlot a.toNat ≠ none →
      (s.config.romWritePolicy = .ignore → memWrite a v s = .ok ((), s)) ∧
      (s.config.romWritePolicy = .fault →
        memWrite a v s = .error (.invalidMemoryAccess a.toNat .write s.pc s)))

/-- R54, R55: a word is read low byte first and written low byte first, at `a` and `a + 1` modulo
65536, each byte access in the state the one before left, and a fault of either byte is the fault of
the whole; and what is written to two distinct RAM bytes is read back. Rests on what the spec marks
as its own: D15, D28 and the [derived] form of WriteWord (R54, R55, R303), taken up in log 27. -/
def Obligations.WordsAreLittleEndian : Prop :=
  (∀ (hi lo : Byte), (wordOf hi lo).toNat = hi.toNat * 256 + lo.toNat) ∧
  (∀ (s s1 s2 : State) (a : Word) (lo hi : Byte), memRead a s = .ok (lo, s1) →
    memRead (a + 1) s1 = .ok (hi, s2) → memReadWord a s = .ok (wordOf hi lo, s2)) ∧
  (∀ (s : State) (a : Word) (f : Fault), memRead a s = .error f → memReadWord a s = .error f) ∧
  (∀ (s s1 : State) (a : Word) (lo : Byte) (f : Fault), memRead a s = .ok (lo, s1) →
    memRead (a + 1) s1 = .error f → memReadWord a s = .error f) ∧
  (∀ (s s1 s2 : State) (a w : Word), memWrite a (BitVec.ofNat 8 (w.toNat % 256)) s = .ok ((), s1) →
    memWrite (a + 1) (BitVec.ofNat 8 (w.toNat / 256)) s1 = .ok ((), s2) →
    memWriteWord a w s = .ok ((), s2)) ∧
  (∀ (s : State) (a w : Word) (f : Fault), memWrite a (BitVec.ofNat 8 (w.toNat % 256)) s = .error f →
    memWriteWord a w s = .error f) ∧
  (∀ (s s1 : State) (a w : Word) (f : Fault),
    memWrite a (BitVec.ofNat 8 (w.toNat % 256)) s = .ok ((), s1) →
    memWrite (a + 1) (BitVec.ofNat 8 (w.toNat / 256)) s1 = .error f → memWriteWord a w s = .error f) ∧
  (∀ (s : State) (a w : Word) (k k' : Nat), s.mem.wf = true → s.RamAt a k → s.RamAt (a + 1) k' →
    k ≠ k' → ∃ t, memWriteWord a w s = .ok ((), t) ∧ memReadWord a t = .ok (w, t))

/-- R71 and the canonical form of log 2: a byte read is the byte last written, a store keeps the
canonical form, and two canonical memories with the same bytes list the same cells. Rests on the
canonical form, which is the model's (log 2). -/
def Obligations.BackingBytesReadAfterWrite : Prop :=
  (∀ (m : Memory) (k j : Nat) (v : Byte), m.wf = true →
    (m.store k v).byteAt j = (if j = k then v else m.byteAt j) ∧ (m.store k v).wf = true) ∧
  (∀ m n : Memory, m.wf = true → n.wf = true → (∀ j, m.byteAt j = n.byteAt j) → m.cells = n.cells)

/-- R56, R57, R58: on the current configuration MapRAM gives both hooks, MapROM the read-hook only,
MapRegister the hooks its mode names, for exactly the mapped addresses; no byte changes; each beyond
MEM_SIZE is a configuration error without effect. With an explicit target configuration each is what
it is on that configuration, the current one's hooks unchanged; a configuration that does not exist
is an error, also where the range leaves MEM_SIZE: that the target is checked before the range is
the model's choice (log 34). Rests on what the spec marks as its own: D13 and D23 (R56, R57, R58).
Rests on the model's choice: log 34. -/
def Obligations.MappingsReplaceTheHooksTheyName : Prop :=
  (∀ (s : State) (base : Nat) (arr : BackingArray),
    (∀ (offset : Nat) (n : Nat), offset + n ≤ arr.size →
      (base + n ≤ s.config.memSize →
        ∃ t, mapRam none base arr offset (some n) s = .ok ((), t) ∧ t.mem.cells = s.mem.cells ∧
          (offset + n = arr.size → mapRam none base arr offset none s = .ok ((), t)) ∧
          ∀ a, (base ≤ a → a < base + n →
              t.mem.readSlot a = some (.byte (arr.origin + offset + (a - base))) ∧
              t.mem.writeSlot a = some (.byte (arr.origin + offset + (a - base)))) ∧
            ((a < base ∨ base + n ≤ a) → t.mem.readSlot a = s.mem.readSlot a ∧
              t.mem.writeSlot a = s.mem.writeSlot a)) ∧
      (s.config.memSize < base + n →
        mapRam none base arr offset (some n) s = .error (.configuration .mappingBeyondMemory s))) ∧
    (base + arr.size ≤ s.config.memSize →
      ∃ t, mapRom none base arr s = .ok ((), t) ∧ t.mem.cells = s.mem.cells ∧
        ∀ a, t.mem.writeSlot a = s.mem.writeSlot a ∧
          (base ≤ a → a < base + arr.size →
            t.mem.readSlot a = some (.byte (arr.origin + (a - base)))) ∧
          ((a < base ∨ base + arr.size ≤ a) → t.mem.readSlot a = s.mem.readSlot a)) ∧
    (s.config.memSize < base + arr.size →
      mapRom none base arr s = .error (.configuration .mappingBeyondMemory s)) ∧
    (∀ (cell : Nat) (mode : RegisterMode),
      (base < s.config.memSize →
        ∃ t, mapRegister none base cell mode s = .ok ((), t) ∧ t.mem.cells = s.mem.cells ∧
          (∀ a, a ≠ base → t.mem.readSlot a = s.mem.readSlot a ∧
            t.mem.writeSlot a = s.mem.writeSlot a) ∧
          t.mem.readSlot base = (if mode = .write then s.mem.readSlot base else some (.byte cell)) ∧
          t.mem.writeSlot base = (if mode = .read then s.mem.writeSlot base else some (.byte cell))) ∧
      (s.config.memSize ≤ base →
        mapRegister none base cell mode s = .error (.configuration .mappingBeyondMemory s)))) ∧
  (∀ (s u : State) (c : Nat) (map : Option Nat → Op Unit),
    ((∃ base arr offset length, offset + length ≤ arr.size ∧
        map = fun config => mapRam config base arr offset (some length)) ∨
      (∃ base arr, map = fun config => mapRom config base arr) ∨
      ∃ base cell mode, map = fun config => mapRegister config base cell mode) →
    (s.config.numConfigs ≤ c → map (some c) s = .error (.configuration .invalidMemoryConfiguration s)) ∧
    (c < s.config.numConfigs → u = { s with mem := { s.mem with cfg := c } } →
      (∀ t, map none u = .ok ((), t) →
        map (some c) s = .ok ((), { t with mem := { t.mem with cfg := s.mem.cfg } }) ∧
        (c ≠ s.mem.cfg → ∀ a,
          ({ t.mem with cfg := s.mem.cfg } : Memory).readSlot a = s.mem.readSlot a ∧
          ({ t.mem with cfg := s.mem.cfg } : Memory).writeSlot a = s.mem.writeSlot a)) ∧
      (∀ reason left, map none u = .error (.configuration reason left) →
        map (some c) s = .error (.configuration reason s))))

/-- R57: after RAM and then ROM are mapped at an address, a write there goes to the RAM byte and the
read still answers the ROM byte; mapping the RAM again shows the byte written. Rests on what the
spec marks as its own: D13 and D23 (R56, R57). -/
def Obligations.RamUnderRom : Prop :=
  ∀ (s s1 s2 : State) (a : Word) (ram rom : Nat) (v : Byte), s.mem.wf = true → ram ≠ rom →
    mapRam none a.toNat ⟨ram, 1⟩ 0 none s = .ok ((), s1) →
    mapRom none a.toNat ⟨rom, 1⟩ s1 = .ok ((), s2) →
    ∃ s3 s4, memWrite a v s2 = .ok ((), s3) ∧ s3.mem.byteAt ram = v ∧
      memRead a s3 = .ok (s.mem.byteAt rom, s3) ∧
      mapRam none a.toNat ⟨ram, 1⟩ 0 none s3 = .ok ((), s4) ∧ memRead a s4 = .ok (v, s4)

/-- R60, R62: SetConfiguration changes the index only, refuses an index out of range, and when a
write-hook does it the new configuration holds from the next access on. A new segment gives both
hooks to exactly its addresses, on bytes of its active bank, which is bank 0 first by the model's
choice (log 30); no byte changes; outside MEM_SIZE, or without a bank, it is a configuration error
without effect; that a segment without a bank is refused, and for that reason whatever its range, is
the model's choice (log 9, log 34). The active bank decides which byte a segment's address stands
for; selecting a bank changes no byte, and a bank out of range is a configuration error. Rests on
what the spec marks as its own: a [derived] sentence of R60. Rests on the model's choice: log 8, log
9, log 30, log 34. -/
def Obligations.ConfigurationsAndBanksSwitchMappings : Prop :=
  (∀ (s : State) (index : Nat),
    (index < s.config.numConfigs →
      setConfiguration index s = .ok ((), { s with mem := { s.mem with cfg := index } })) ∧
    (s.config.numConfigs ≤ index →
      setConfiguration index s = .error (.configuration .invalidMemoryConfiguration s)) ∧
    (∀ (a : Word) (v b : Byte) (port : Nat) (reply : HookReply) (rest : List HookReply),
      s.writeSlot a = some (.device port) → index < s.config.numConfigs →
      s.replies = reply :: rest → reply.answer (.write port a v) = ⟨b, [.setConfiguration index]⟩ →
      memWrite a v s = .ok ((), { s with
        mem := { s.mem with cfg := index }
        replies := rest
        hookCalls := .write port a v :: s.hookCalls }))) ∧
  (∀ (s : State) (name : String) (origin size place : Nat) (banks : List Nat),
    s.Inv →
    (origin + size ≤ s.config.memSize →
      ∃ t, mapSegment none name origin size (place :: banks) s = .ok ((), t) ∧
        t.mem.cells = s.mem.cells ∧ t.mem.cfg = s.mem.cfg ∧
        t.mem.segments = s.mem.segments ++ [⟨name, origin, size, place :: banks, 0⟩] ∧
        ∀ a, (origin ≤ a → a < origin + size →
            t.mem.readSlot a = some (.byte (place + (a - origin))) ∧
            t.mem.writeSlot a = some (.byte (place + (a - origin)))) ∧
          ((a < origin ∨ origin + size ≤ a) → t.mem.readSlot a = s.mem.readSlot a ∧
            t.mem.writeSlot a = s.mem.writeSlot a)) ∧
    (s.config.memSize < origin + size →
      mapSegment none name origin size (place :: banks) s =
        .error (.configuration .mappingBeyondMemory s)) ∧
    mapSegment none name origin size [] s = .error (.configuration .bankOutOfRange s)) ∧
  (∀ (s : State) (id bank : Nat) (g : Segment), s.mem.segments[id]? = some g →
    (∀ place, g.banks[bank]? = some place →
      ∃ t, selectBank id bank s = .ok ((), t) ∧ t.mem.cells = s.mem.cells ∧
        t.mem.maps = s.mem.maps ∧ t.mem.cfg = s.mem.cfg ∧
        (∀ off, t.mem.segmentIndex id off = some (place + off)) ∧
        (∀ j off, j ≠ id → t.mem.segmentIndex j off = s.mem.segmentIndex j off)) ∧
    (g.banks.length ≤ bank → selectBank id bank s = .error (.configuration .bankOutOfRange s)))

/-- R340, R343: an invocation of a hook or observer is recorded with what the host receives, its
actions are carried out at once, and it answers what the next reply of the host's script says to
that call. Among the actions are a read and a write through the mapping: they fault as those of the
core do; the byte read is kept for the host; of a device the invocation is recorded, and the byte of
its read-hook is free. A read, a write or an observer changes memory, the registry and the record of
calls, replies and bytes read, and no processor register, counter, option or parameter. Rests on
what the spec marks as its own: D22 (R343). Rests on the model's choice: log 6, log 7. -/
def Obligations.HooksLeaveTheProcessor : Prop :=
  (∀ (s : State) (call : HookCall) (reply : HookReply) (rest : List HookReply) (answer : HookAnswer),
    s.replies = reply :: rest →
    (reply.cases.lookup call = some answer ∨
      reply.cases.lookup call = none ∧ reply.otherwise = answer) →
    (∀ t, applyActions answer.actions { s with hookCalls := call :: s.hookCalls, replies := rest } =
      .ok ((), t) → invokeHook call s = .ok (answer.byte, t)) ∧
    (∀ f, applyActions answer.actions { s with hookCalls := call :: s.hookCalls, replies := rest } =
      .error f → invokeHook call s = .error f)) ∧
  (∀ (s : State) (call : HookCall), s.replies = [] → ∃ b,
    invokeHook call s =
      .ok (b, { s with hookCalls := call :: s.hookCalls, freeCount := s.freeCount + 1 })) ∧
  (∀ (s : State) (a : Word),
    (∀ k, s.readSlot a = some (.byte k) →
      applyAction (.memRead a) s = .ok ((), { s with hostBytes := [s.mem.byteAt k] })) ∧
    (s.readSlot a = none →
      applyAction (.memRead a) s = .error (.invalidMemoryAccess a.toNat .read s.pc s)) ∧
    (∀ port, s.readSlot a = some (.device port) → ∃ b, applyAction (.memRead a) s = .ok ((), { s with
      hookCalls := .read port a :: s.hookCalls, hostBytes := [b], freeCount := s.freeCount + 1 })) ∧
    ∀ v, (∀ port, s.writeSlot a = some (.device port) →
        applyAction (.memWrite a v) s = .ok ((), { s with hookCalls := .write port a v :: s.hookCalls })) ∧
      ((∀ port, s.writeSlot a ≠ some (.device port)) → applyAction (.memWrite a v) s = memWrite a v s)) ∧
  (∀ (s t : State) (a : Word) (v : Byte), memRead a s = .ok (v, t) → SameButHooks s t) ∧
  (∀ (s t : State) (a : Word) (v : Byte), memWrite a v s = .ok ((), t) → SameButHooks s t) ∧
  (∀ (s t : State) (call : HookCall) (n : Nat), fireObservers call n s = .ok ((), t) → SameButHooks s t)

/-! ## Addressing modes (40_step_addressing_flags.md R130 to R138) -/

/-- R130 to R132: the zero-page modes; an indexed sum wraps within page 0, nothing is crossed, nothing
changes. -/
def Obligations.ZeroPageModesStayInPageZero : Prop :=
  ∀ (s : State) (nn : Byte),
    (∃ a, effectiveAddress (.zeroPage nn) s = .ok ((a, false), s) ∧ a.toNat = nn.toNat) ∧
    (∃ a, effectiveAddress (.zeroPageX nn) s = .ok ((a, false), s) ∧
      a.toNat = (nn.toNat + s.x.toNat) % 256) ∧
    (∃ a, effectiveAddress (.zeroPageY nn) s = .ok ((a, false), s) ∧
      a.toNat = (nn.toNat + s.y.toNat) % 256)

/-- R133, R137, R138: the absolute modes; the sum wraps modulo 65536, and `crossed` says that the
low byte overflowed, which is that the page changed. R123: in every mode what a shape (c)
instruction is handed is the address resolved, with the crossing noted for R160, and what a shape
(b) instruction is handed is the byte read at it then; a fault of the resolution is the fault of
both. Rests on what the spec marks as its own: D16 (R137, R138). Rests on the model's choice: log
13. -/
def Obligations.AbsoluteModesReportCrossing : Prop :=
  (∀ (s : State) (w : Word),
    effectiveAddress (.absolute w) s = .ok ((w, false), s) ∧
    (∃ a c, effectiveAddress (.absoluteX w) s = .ok ((a, c), s) ∧
      a.toNat = (w.toNat + s.x.toNat) % 65536 ∧ c = decide (255 < w.toNat % 256 + s.x.toNat) ∧
      (c = true ↔ highByte a ≠ highByte w)) ∧
    (∃ a c, effectiveAddress (.absoluteY w) s = .ok ((a, c), s) ∧
      a.toNat = (w.toNat + s.y.toNat) % 65536 ∧ c = decide (255 < w.toNat % 256 + s.y.toNat) ∧
      (c = true ↔ highByte a ≠ highByte w))) ∧
  (∀ (m : Address) (s s1 : State) (a : Word) (c : Bool), effectiveAddress m s = .ok ((a, c), s1) →
    locate m s = .ok (a, { s1 with events := { s1.events with crossed := c } }) ∧
    loadOperand m s = memRead a { s1 with events := { s1.events with crossed := c } }) ∧
  (∀ (m : Address) (s : State) (f : Fault), effectiveAddress m s = .error f →
    locate m s = .error f ∧ loadOperand m s = .error f) ∧
  (∀ (m : Address) (nn : Byte),
    valueOf (.memory m) = some (loadOperand m) ∧ addressOf (.memory m) = some (locate m) ∧
    valueOf (.immediate nn) = some (pure nn) ∧ valueOf (.relative nn) = some (pure nn))

/-- R134, R135, R136: where the indirect modes read their pointers on bytes that read without side
effect: `(zp,X)` and `(zp),Y` under both settings of ZP_PTR_WRAP, `JMP (ptr)` on the same page. In
general the low byte is read first, the high byte in the state that read left (a device hook may
have run), and a fault of either read is the fault of the resolution. Rests on what the spec marks
as its own: D4, D15, D16, D28 and general knowledge (R134, R135, R303), taken up in log 15, log
27. -/
def Obligations.IndirectModesReadTheirPointers : Prop :=
  (∀ (s : State) (lo hi : Byte),
    (∀ nn : Byte, s.peek (zeroExtend (nn + s.x)) = some lo →
      s.peek (if s.config.zpPtrWrap = .linear then zeroExtend (nn + s.x) + 1
        else zeroExtend (nn + s.x + 1)) = some hi →
      effectiveAddress (.indexedIndirectX nn) s = .ok ((wordOf hi lo, false), s)) ∧
    (∀ nn : Byte, s.peek (zeroExtend nn) = some lo →
      s.peek (if s.config.zpPtrWrap = .linear then zeroExtend nn + 1 else zeroExtend (nn + 1)) =
        some hi →
      effectiveAddress (.indirectIndexedY nn) s =
        .ok ((wordOf hi lo + zeroExtend s.y, decide (255 < lo.toNat + s.y.toNat)), s)) ∧
    (∀ ptr : Word, s.peek ptr = some lo →
      s.peek (wordOf (highByte ptr) (lowByte ptr + 1)) = some hi →
      effectiveAddress (.indirect ptr) s = .ok ((wordOf hi lo, false), s))) ∧
  (∀ (s : State) (m : Address) (low high : Word) (result : Word → Word × Bool),
    ((∃ nn, m = .indexedIndirectX nn ∧ low = zeroExtend (nn + s.x) ∧
        high = (if s.config.zpPtrWrap = .linear then low + 1 else zeroExtend (nn + s.x + 1)) ∧
        result = fun w => (w, false)) ∨
      (∃ nn, m = .indirectIndexedY nn ∧ low = zeroExtend nn ∧
        high = (if s.config.zpPtrWrap = .linear then low + 1 else zeroExtend (nn + 1)) ∧
        result = fun w => (w + zeroExtend s.y, decide (255 < w.toNat % 256 + s.y.toNat))) ∨
      (m = .indirect low ∧ high = wordOf (highByte low) (lowByte low + 1) ∧
        result = fun w => (w, false))) →
    (∀ (lo hi : Byte) (s1 s2 : State), memRead low s = .ok (lo, s1) → memRead high s1 = .ok (hi, s2) →
      effectiveAddress m s = .ok (result (wordOf hi lo), s2)) ∧
    (∀ f, memRead low s = .error f → effectiveAddress m s = .error f) ∧
    (∀ (lo : Byte) (s1 : State) (f : Fault), memRead low s = .ok (lo, s1) → memRead high s1 = .error f →
      effectiveAddress m s = .error f))

/-! ## Register-and-flag-only instructions (41_register_only.md) -/

/-- R170 to R175. Rests on what the spec marks as its own: general knowledge (R170 to R175). -/
def Obligations.TransfersCopyRegisters : Prop :=
  (TableSays .tax 0xAA#8 1 2 0 ∧ TableSays .tay 0xA8#8 1 2 0 ∧ TableSays .txa 0x8A#8 1 2 0 ∧
    TableSays .tya 0x98#8 1 2 0 ∧ TableSays .tsx 0xBA#8 1 2 0 ∧ TableSays .txs 0x9A#8 1 2 0) ∧
  ∀ s : State,
    exec .tax s = .next { s with x := s.a, p := withZN s.a s.p } ∧
    exec .tay s = .next { s with y := s.a, p := withZN s.a s.p } ∧
    exec .txa s = .next { s with a := s.x, p := withZN s.x s.p } ∧
    exec .tya s = .next { s with a := s.y, p := withZN s.y s.p } ∧
    exec .tsx s = .next { s with x := s.sp, p := withZN s.sp s.p } ∧
    exec .txs s = .next { s with sp := s.x }

/-- R176 to R179: modulo 256, Z and N only. Rests on what the spec marks as its own: general
knowledge (R176 to R179). -/
def Obligations.IndexRegistersCount : Prop :=
  (TableSays .inx 0xE8#8 1 2 0 ∧ TableSays .iny 0xC8#8 1 2 0 ∧ TableSays .dex 0xCA#8 1 2 0 ∧
    TableSays .dey 0x88#8 1 2 0) ∧
  ∀ (s : State) (r : Byte),
    (r.toNat = (s.x.toNat + 1) % 256 → exec .inx s = .next { s with x := r, p := withZN r s.p }) ∧
    (r.toNat = (s.y.toNat + 1) % 256 → exec .iny s = .next { s with y := r, p := withZN r s.p }) ∧
    (r.toNat = (s.x.toNat + 255) % 256 → exec .dex s = .next { s with x := r, p := withZN r s.p }) ∧
    (r.toNat = (s.y.toNat + 255) % 256 → exec .dey s = .next { s with y := r, p := withZN r s.p })

/-- R180 to R186: one flag each, nothing else. R188: NOP has no effect after the fetch. Rests on
what the spec marks as its own: general knowledge, D3 and D12 (R180 to R188). -/
def Obligations.FlagInstructionsAndNop : Prop :=
  (TableSays .clc 0x18#8 1 2 0 ∧ TableSays .sec 0x38#8 1 2 0 ∧ TableSays .cli 0x58#8 1 2 0 ∧
    TableSays .sei 0x78#8 1 2 0 ∧ TableSays .cld 0xD8#8 1 2 0 ∧ TableSays .sed 0xF8#8 1 2 0 ∧
    TableSays .clv 0xB8#8 1 2 0 ∧ TableSays .nop 0xEA#8 1 2 0) ∧
  ∀ s : State,
    exec .clc s = .next { s with p := s.p &&& 0xFE#8 } ∧ exec .sec s = .next { s with p := s.p ||| 0x01#8 } ∧
    exec .cli s = .next { s with p := s.p &&& 0xFB#8 } ∧ exec .sei s = .next { s with p := s.p ||| 0x04#8 } ∧
    exec .cld s = .next { s with p := s.p &&& 0xF7#8 } ∧ exec .sed s = .next { s with p := s.p ||| 0x08#8 } ∧
    exec .clv s = .next { s with p := s.p &&& 0xBF#8 } ∧ exec .nop s = .next s

/-! ## Instructions that consume a byte value (42_byte_operand.md) -/

/-- R200, R201, R202 in every mode: `s1` is the state after the operand was obtained (a device hook
may have run), `v` its byte. Rests on what the spec marks as its own: general knowledge (R200 to
R202). -/
def Obligations.LoadsLoadAndSetZN : Prop :=
  (∀ (nn : Byte) (w : Word),
    (TableSays (.ldaImm nn) 0xA9#8 2 2 0 ∧ TableSays (.ldaZp nn) 0xA5#8 2 3 0 ∧
      TableSays (.ldaZpX nn) 0xB5#8 2 4 0 ∧ TableSays (.ldaAbs w) 0xAD#8 3 4 0 ∧
      TableSays (.ldaAbsX w) 0xBD#8 3 4 1 ∧ TableSays (.ldaAbsY w) 0xB9#8 3 4 1 ∧
      TableSays (.ldaIzX nn) 0xA1#8 2 6 0 ∧ TableSays (.ldaIzY nn) 0xB1#8 2 5 1) ∧
    (TableSays (.ldxImm nn) 0xA2#8 2 2 0 ∧ TableSays (.ldxZp nn) 0xA6#8 2 3 0 ∧
      TableSays (.ldxZpY nn) 0xB6#8 2 4 0 ∧ TableSays (.ldxAbs w) 0xAE#8 3 4 0 ∧
      TableSays (.ldxAbsY w) 0xBE#8 3 4 1) ∧
    (TableSays (.ldyImm nn) 0xA0#8 2 2 0 ∧ TableSays (.ldyZp nn) 0xA4#8 2 3 0 ∧
      TableSays (.ldyZpX nn) 0xB4#8 2 4 0 ∧ TableSays (.ldyAbs w) 0xAC#8 3 4 0 ∧
      TableSays (.ldyAbsX w) 0xBC#8 3 4 1)) ∧
  ∀ (i : Instr) (s s1 : State) (v : Byte) (value : Op Byte), valueOf i.operand = some value →
    value s = .ok (v, s1) →
    (i.mnemonic = .lda → exec i s = .next { s1 with a := v, p := withZN v s1.p }) ∧
    (i.mnemonic = .ldx → exec i s = .next { s1 with x := v, p := withZN v s1.p }) ∧
    (i.mnemonic = .ldy → exec i s = .next { s1 with y := v, p := withZN v s1.p })

/-- R203, R204 in every mode. The Decimal flag is not read: the result is that of the binary helpers
whatever `P.D` holds. Rests on what the spec marks as its own: D3 and general knowledge (R203,
R204). -/
def Obligations.AddAndSubtractWithCarry : Prop :=
  (∀ (nn : Byte) (w : Word),
    (TableSays (.adcImm nn) 0x69#8 2 2 0 ∧ TableSays (.adcZp nn) 0x65#8 2 3 0 ∧
      TableSays (.adcZpX nn) 0x75#8 2 4 0 ∧ TableSays (.adcAbs w) 0x6D#8 3 4 0 ∧
      TableSays (.adcAbsX w) 0x7D#8 3 4 1 ∧ TableSays (.adcAbsY w) 0x79#8 3 4 1 ∧
      TableSays (.adcIzX nn) 0x61#8 2 6 0 ∧ TableSays (.adcIzY nn) 0x71#8 2 5 1) ∧
    (TableSays (.sbcImm nn) 0xE9#8 2 2 0 ∧ TableSays (.sbcZp nn) 0xE5#8 2 3 0 ∧
      TableSays (.sbcZpX nn) 0xF5#8 2 4 0 ∧ TableSays (.sbcAbs w) 0xED#8 3 4 0 ∧
      TableSays (.sbcAbsX w) 0xFD#8 3 4 1 ∧ TableSays (.sbcAbsY w) 0xF9#8 3 4 1 ∧
      TableSays (.sbcIzX nn) 0xE1#8 2 6 0 ∧ TableSays (.sbcIzY nn) 0xF1#8 2 5 1)) ∧
  ∀ (i : Instr) (s s1 : State) (v : Byte) (value : Op Byte), valueOf i.operand = some value →
    value s = .ok (v, s1) → ∀ r : AddResult,
    (i.mnemonic = .adc ∧ r = addWithCarry s1.a v (getFlag .c s1.p) ∨
      i.mnemonic = .sbc ∧ r = addWithCarry s1.a (BitVec.ofNat 8 (255 - v.toNat)) (getFlag .c s1.p)) →
    ∃ q : Byte, exec i s = .next { s1 with a := r.value, p := q } ∧
      getFlag .c q = r.carry ∧ getFlag .z q = r.zero ∧ getFlag .n q = r.negative ∧
      getFlag .v q = r.overflow ∧
      ∀ f : Flag, f ∉ [Flag.c, .z, .n, .v] → getFlag f q = getFlag f s1.p

/-- R205, R206, R207 in every mode. Rests on what the spec marks as its own: general knowledge (R205
to R207). -/
def Obligations.LogicOnTheAccumulator : Prop :=
  (∀ (nn : Byte) (w : Word),
    (TableSays (.andImm nn) 0x29#8 2 2 0 ∧ TableSays (.andZp nn) 0x25#8 2 3 0 ∧
      TableSays (.andZpX nn) 0x35#8 2 4 0 ∧ TableSays (.andAbs w) 0x2D#8 3 4 0 ∧
      TableSays (.andAbsX w) 0x3D#8 3 4 1 ∧ TableSays (.andAbsY w) 0x39#8 3 4 1 ∧
      TableSays (.andIzX nn) 0x21#8 2 6 0 ∧ TableSays (.andIzY nn) 0x31#8 2 5 1) ∧
    (TableSays (.oraImm nn) 0x09#8 2 2 0 ∧ TableSays (.oraZp nn) 0x05#8 2 3 0 ∧
      TableSays (.oraZpX nn) 0x15#8 2 4 0 ∧ TableSays (.oraAbs w) 0x0D#8 3 4 0 ∧
      TableSays (.oraAbsX w) 0x1D#8 3 4 1 ∧ TableSays (.oraAbsY w) 0x19#8 3 4 1 ∧
      TableSays (.oraIzX nn) 0x01#8 2 6 0 ∧ TableSays (.oraIzY nn) 0x11#8 2 5 1) ∧
    (TableSays (.eorImm nn) 0x49#8 2 2 0 ∧ TableSays (.eorZp nn) 0x45#8 2 3 0 ∧
      TableSays (.eorZpX nn) 0x55#8 2 4 0 ∧ TableSays (.eorAbs w) 0x4D#8 3 4 0 ∧
      TableSays (.eorAbsX w) 0x5D#8 3 4 1 ∧ TableSays (.eorAbsY w) 0x59#8 3 4 1 ∧
      TableSays (.eorIzX nn) 0x41#8 2 6 0 ∧ TableSays (.eorIzY nn) 0x51#8 2 5 1)) ∧
  ∀ (i : Instr) (s s1 : State) (v : Byte) (value : Op Byte), valueOf i.operand = some value →
    value s = .ok (v, s1) →
    (i.mnemonic = .and →
      exec i s = .next { s1 with a := s1.a &&& v, p := withZN (s1.a &&& v) s1.p }) ∧
    (i.mnemonic = .ora →
      exec i s = .next { s1 with a := s1.a ||| v, p := withZN (s1.a ||| v) s1.p }) ∧
    (i.mnemonic = .eor →
      exec i s = .next { s1 with a := s1.a ^^^ v, p := withZN (s1.a ^^^ v) s1.p })

/-- R208 to R211 in every mode: the compares and BIT change flags only. Rests on what the spec marks
as its own: general knowledge (R208 to R211). -/
def Obligations.ComparesAndBitChangeFlagsOnly : Prop :=
  (∀ (nn : Byte) (w : Word),
    (TableSays (.cmpImm nn) 0xC9#8 2 2 0 ∧ TableSays (.cmpZp nn) 0xC5#8 2 3 0 ∧
      TableSays (.cmpZpX nn) 0xD5#8 2 4 0 ∧ TableSays (.cmpAbs w) 0xCD#8 3 4 0 ∧
      TableSays (.cmpAbsX w) 0xDD#8 3 4 1 ∧ TableSays (.cmpAbsY w) 0xD9#8 3 4 1 ∧
      TableSays (.cmpIzX nn) 0xC1#8 2 6 0 ∧ TableSays (.cmpIzY nn) 0xD1#8 2 5 1) ∧
    (TableSays (.cpxImm nn) 0xE0#8 2 2 0 ∧ TableSays (.cpxZp nn) 0xE4#8 2 3 0 ∧
      TableSays (.cpxAbs w) 0xEC#8 3 4 0) ∧
    (TableSays (.cpyImm nn) 0xC0#8 2 2 0 ∧ TableSays (.cpyZp nn) 0xC4#8 2 3 0 ∧
      TableSays (.cpyAbs w) 0xCC#8 3 4 0) ∧
    (TableSays (.bitZp nn) 0x24#8 2 3 0 ∧ TableSays (.bitAbs w) 0x2C#8 3 4 0)) ∧
  ∀ (i : Instr) (s s1 : State) (v : Byte) (value : Op Byte), valueOf i.operand = some value →
    value s = .ok (v, s1) →
    (i.mnemonic = .cmp → exec i s = .next { s1 with p := (compareBytes s1.a v).status s1.p }) ∧
    (i.mnemonic = .cpx → exec i s = .next { s1 with p := (compareBytes s1.x v).status s1.p }) ∧
    (i.mnemonic = .cpy → exec i s = .next { s1 with p := (compareBytes s1.y v).status s1.p }) ∧
    (i.mnemonic = .bit → exec i s = .next { s1 with p := bitTest s1.a v s1.p })

/-- The frame of the instructions of file 42 in every mode: registers, flags, the rest of the
machine, and, where no device is mapped, all of memory and the interrupt registry. Rests on what the
spec marks as its own: general knowledge (R21 to R32, R200 to R211). -/
def Obligations.ValueInstructionsFrame : Prop :=
  ∀ (i : Instr) (s t : State),
    i.mnemonic ∈ [Mnemonic.lda, .ldx, .ldy, .adc, .sbc, .and, .ora, .eor, .cmp, .cpx, .cpy, .bit] →
    exec i s = .next t →
    (t.pc = s.pc ∧ t.sp = s.sp) ∧
    (i.mnemonic ∉ [Mnemonic.lda, .adc, .sbc, .and, .ora, .eor] → t.a = s.a) ∧
    (i.mnemonic ≠ .ldx → t.x = s.x) ∧ (i.mnemonic ≠ .ldy → t.y = s.y) ∧
    (i.mnemonic ∈ [Mnemonic.lda, .ldx, .ldy, .and, .ora, .eor] → SameFlagsBut [.z, .n] s t) ∧
    (i.mnemonic ∈ [Mnemonic.adc, .sbc] → SameFlagsBut [.c, .z, .n, .v] s t) ∧
    (i.mnemonic ∈ [Mnemonic.cmp, .cpx, .cpy] → SameFlagsBut [.c, .z, .n] s t) ∧
    (i.mnemonic = .bit → SameFlagsBut [.z, .v, .n] s t) ∧
    (t.config = s.config ∧ t.call = s.call ∧ t.lifetime = s.lifetime ∧ t.options = s.options ∧
      t.inCall = s.inCall ∧ t.stopReasons = s.stopReasons ∧ t.observers = s.observers ∧
      t.hostQueue = s.hostQueue) ∧
    (s.mem.plain = true → t.mem = s.mem ∧ t.irq = s.irq ∧ t.nmi = s.nmi ∧ SameReads s t)

/-! ## Instructions that consume a resolved address (43_address_operand.md, 44_shift_rotate.md) -/

/-- R220, R221, R222 in every mode: one write of the register to the resolved address, nothing else;
where the address writes to a backing byte, exactly that byte changes. Rests on what the spec marks
as its own: general knowledge (R220 to R222). -/
def Obligations.StoresWriteTheRegister : Prop :=
  (∀ (nn : Byte) (w : Word),
    (TableSays (.staZp nn) 0x85#8 2 3 0 ∧ TableSays (.staZpX nn) 0x95#8 2 4 0 ∧
      TableSays (.staAbs w) 0x8D#8 3 4 0 ∧ TableSays (.staAbsX w) 0x9D#8 3 5 0 ∧
      TableSays (.staAbsY w) 0x99#8 3 5 0 ∧ TableSays (.staIzX nn) 0x81#8 2 6 0 ∧
      TableSays (.staIzY nn) 0x91#8 2 6 0) ∧
    (TableSays (.stxZp nn) 0x86#8 2 3 0 ∧ TableSays (.stxZpY nn) 0x96#8 2 4 0 ∧
      TableSays (.stxAbs w) 0x8E#8 3 4 0) ∧
    (TableSays (.styZp nn) 0x84#8 2 3 0 ∧ TableSays (.styZpX nn) 0x94#8 2 4 0 ∧
      TableSays (.styAbs w) 0x8C#8 3 4 0)) ∧
  ∀ (i : Instr) (s s1 : State) (addr : Word) (address : Op Word) (r : Byte),
    addressOf i.operand = some address → address s = .ok (addr, s1) →
    (i.mnemonic = .sta ∧ r = s1.a ∨ i.mnemonic = .stx ∧ r = s1.x ∨ i.mnemonic = .sty ∧ r = s1.y) →
    (∀ t, memWrite addr r s1 = .ok ((), t) → exec i s = .next t) ∧
    (∀ k, s1.writeSlot addr = some (.byte k) →
      exec i s = .next { s1 with mem := s1.mem.store k r })

/-- R223, R224 in every mode: one read, one write of the result, then Z and N of the result. Rests
on what the spec marks as its own: general knowledge (R223, R224). -/
def Obligations.IncrementAndDecrementMemory : Prop :=
  (∀ (nn : Byte) (w : Word),
    (TableSays (.incZp nn) 0xE6#8 2 5 0 ∧ TableSays (.incZpX nn) 0xF6#8 2 6 0 ∧
      TableSays (.incAbs w) 0xEE#8 3 6 0 ∧ TableSays (.incAbsX w) 0xFE#8 3 7 0) ∧
    (TableSays (.decZp nn) 0xC6#8 2 5 0 ∧ TableSays (.decZpX nn) 0xD6#8 2 6 0 ∧
      TableSays (.decAbs w) 0xCE#8 3 6 0 ∧ TableSays (.decAbsX w) 0xDE#8 3 7 0)) ∧
  ∀ (i : Instr) (s s1 s2 s3 : State) (addr : Word) (address : Op Word) (v r : Byte),
    addressOf i.operand = some address → address s = .ok (addr, s1) →
    memRead addr s1 = .ok (v, s2) →
    (i.mnemonic = .inc ∧ r.toNat = (v.toNat + 1) % 256 ∨
      i.mnemonic = .dec ∧ r.toNat = (v.toNat + 255) % 256) →
    memWrite addr r s2 = .ok ((), s3) →
    exec i s = .next { s3 with p := withZN r s3.p }

/-- R225 in both modes. Rests on what the spec marks as its own: general knowledge (R225). -/
def Obligations.JumpGoesToTheAddress : Prop :=
  (∀ w : Word, TableSays (.jmpAbs w) 0x4C#8 3 3 0 ∧ TableSays (.jmpInd w) 0x6C#8 3 5 0) ∧
  (∀ (s : State) (w : Word), ∃ e : StepEvents,
    exec (.jmpAbs w) s = .next { s with pc := w, events := e }) ∧
  (∀ (s : State) (ptr : Word) (lo hi : Byte), s.peek ptr = some lo →
    s.peek ((ptr &&& 0xFF00#16) ||| ((ptr + 1) &&& 0x00FF#16)) = some hi →
    ∃ e : StepEvents, exec (.jmpInd ptr) s = .next { s with pc := wordOf hi lo, events := e }) ∧
  (∀ (i : Instr) (s s1 : State) (addr : Word) (address : Op Word), i.mnemonic = .jmp →
    addressOf i.operand = some address → address s = .ok (addr, s1) →
    exec i s = .next { s1 with pc := addr })

/-- R240 to R243: the accumulator forms, and the memory forms in every mode. Rests on what the spec
marks as its own: general knowledge (R240 to R243). -/
def Obligations.ShiftsOnAccumulatorAndMemory : Prop :=
  (∀ (nn : Byte) (w : Word),
    (TableSays .aslAcc 0x0A#8 1 2 0 ∧ TableSays (.aslZp nn) 0x06#8 2 5 0 ∧
      TableSays (.aslZpX nn) 0x16#8 2 6 0 ∧ TableSays (.aslAbs w) 0x0E#8 3 6 0 ∧
      TableSays (.aslAbsX w) 0x1E#8 3 7 0) ∧
    (TableSays .lsrAcc 0x4A#8 1 2 0 ∧ TableSays (.lsrZp nn) 0x46#8 2 5 0 ∧
      TableSays (.lsrZpX nn) 0x56#8 2 6 0 ∧ TableSays (.lsrAbs w) 0x4E#8 3 6 0 ∧
      TableSays (.lsrAbsX w) 0x5E#8 3 7 0) ∧
    (TableSays .rolAcc 0x2A#8 1 2 0 ∧ TableSays (.rolZp nn) 0x26#8 2 5 0 ∧
      TableSays (.rolZpX nn) 0x36#8 2 6 0 ∧ TableSays (.rolAbs w) 0x2E#8 3 6 0 ∧
      TableSays (.rolAbsX w) 0x3E#8 3 7 0) ∧
    (TableSays .rorAcc 0x6A#8 1 2 0 ∧ TableSays (.rorZp nn) 0x66#8 2 5 0 ∧
      TableSays (.rorZpX nn) 0x76#8 2 6 0 ∧ TableSays (.rorAbs w) 0x6E#8 3 6 0 ∧
      TableSays (.rorAbsX w) 0x7E#8 3 7 0)) ∧
  ∀ (i : Instr) (f : Byte → Bool → ShiftResult),
    (i.mnemonic = .asl ∧ f = shiftLeft ∨ i.mnemonic = .lsr ∧ f = shiftRight ∨
      i.mnemonic = .rol ∧ f = rotateLeft ∨ i.mnemonic = .ror ∧ f = rotateRight) →
    (∀ s : State, i.operand = .accumulator →
      exec i s = .next { s with
        a := (f s.a (getFlag .c s.p)).value
        p := withZN (f s.a (getFlag .c s.p)).value (putFlag .c (f s.a (getFlag .c s.p)).carry s.p) }) ∧
    (∀ (s s1 s2 s3 : State) (addr : Word) (address : Op Word) (v : Byte) (r : ShiftResult),
      addressOf i.operand = some address → address s = .ok (addr, s1) →
      memRead addr s1 = .ok (v, s2) → r = f v (getFlag .c s2.p) →
      memWrite addr r.value s2 = .ok ((), s3) →
      exec i s = .next { s3 with p := withZN r.value (putFlag .c r.carry s3.p) })

/-- The frame of the instructions that write memory at a resolved address, where no device is
mapped: registers, flags, and every address that does not read from the byte the resolved address
writes to. The accumulator forms write A and no memory. Rests on what the spec marks as its own:
general knowledge (R21 to R32, R220 to R243). -/
def Obligations.MemoryWritersFrame : Prop :=
  ∀ (i : Instr) (s t : State),
    i.mnemonic ∈ [Mnemonic.sta, .stx, .sty, .inc, .dec, .asl, .lsr, .rol, .ror] →
    s.mem.plain = true → s.mem.wf = true → exec i s = .next t →
    (t.pc = s.pc ∧ t.sp = s.sp ∧ t.x = s.x ∧ t.y = s.y) ∧
    (i.operand ≠ .accumulator → t.a = s.a) ∧
    (i.mnemonic ∈ [Mnemonic.sta, .stx, .sty] → t.p = s.p) ∧
    (i.mnemonic ∈ [Mnemonic.inc, .dec] → SameFlagsBut [.z, .n] s t) ∧
    (i.mnemonic ∈ [Mnemonic.asl, .lsr, .rol, .ror] → SameFlagsBut [.c, .z, .n] s t) ∧
    SameButProgram s t ∧
    (addressOf i.operand = none → SameReads s t) ∧
    (∀ (address : Op Word) (addr : Word) (s1 : State), addressOf i.operand = some address →
      address s = .ok (addr, s1) → ∀ b : Word,
      (∀ k, s.writeSlot addr = some (.byte k) → s.readSlot b ≠ some (.byte k)) →
      t.peek b = s.peek b)

/-! ## Branches (45_branches.md) -/

/-- R250 to R258: each branch on its condition; a taken branch adds the signed offset to the address
after the branch, and the step costs 2 cycles, 1 more if taken, 1 more if the target is on another
page. Rests on what the spec marks as its own: D16, D26 and general knowledge (R250 to R258). -/
def Obligations.BranchesAddTheSignedOffset : Prop :=
  (∀ nn : Byte,
    TableSays (.bcc nn) 0x90#8 2 2 0 ∧ TableSays (.bcs nn) 0xB0#8 2 2 0 ∧
    TableSays (.beq nn) 0xF0#8 2 2 0 ∧ TableSays (.bne nn) 0xD0#8 2 2 0 ∧
    TableSays (.bmi nn) 0x30#8 2 2 0 ∧ TableSays (.bpl nn) 0x10#8 2 2 0 ∧
    TableSays (.bvc nn) 0x50#8 2 2 0 ∧ TableSays (.bvs nn) 0x70#8 2 2 0) ∧
  (∀ (i : Instr) (nn : Byte) (s : State) (cond : Bool),
    (i = .bcc nn ∧ cond = !getFlag .c s.p ∨ i = .bcs nn ∧ cond = getFlag .c s.p ∨
      i = .beq nn ∧ cond = getFlag .z s.p ∨ i = .bne nn ∧ cond = !getFlag .z s.p ∨
      i = .bmi nn ∧ cond = getFlag .n s.p ∨ i = .bpl nn ∧ cond = !getFlag .n s.p ∨
      i = .bvc nn ∧ cond = !getFlag .v s.p ∨ i = .bvs nn ∧ cond = getFlag .v s.p) →
    (cond = false → exec i s = .next s) ∧
    (cond = true → ∀ target : Word,
      target.toNat = (s.pc.toNat + nn.toNat + (if nn.toNat < 128 then 0 else 0xFF00)) % 65536 →
      exec i s = .next { s with
        pc := target
        events := { s.events with
          branchTaken := true
          branchOtherPage := decide (target.toNat / 256 ≠ s.pc.toNat / 256) } })) ∧
  (∀ (i : Instr) (taken other : Bool) (row : TableRow), isRelative i.operand = true →
    findRow Config.default.table i.opcode = some row →
    stepCycles Config.default row ⟨false, taken, other⟩ = 2 + taken.toNat + other.toNat)

/-! ## Stack, subroutines, software interrupt (46_stack_subroutine_interrupt.md) -/

/-- 40_step_addressing_flags.md R150 to R153: push writes at `0x0100 + SP` and then decrements, pull
increments and then reads, words go high byte first and come low byte first; a fault of an access is
the fault of the push or pull, of a word with either byte; and on RAM a pushed word is pulled again
with SP restored. Rests on what the spec marks as its own: D17, D28, general knowledge and a
[derived] sentence (R150 to R153, R303), taken up in log 14, log 23. -/
def Obligations.StackPushAndPull : Prop :=
  (∀ sp : Byte, (stackAddress sp).toNat = 0x0100 + sp.toNat) ∧
  (∀ (s t : State) (v : Byte), memWrite (stackAddress s.sp) v s = .ok ((), t) →
    push8 v s = .ok ((), { t with sp := s.sp - 1 })) ∧
  (∀ (s t : State) (v : Byte),
    memRead (stackAddress (s.sp + 1)) { s with sp := s.sp + 1 } = .ok (v, t) →
    pull8 s = .ok (v, t)) ∧
  (∀ (s s1 s2 : State) (w : Word), push8 (highByte w) s = .ok ((), s1) →
    push8 (lowByte w) s1 = .ok ((), s2) → push16 w s = .ok ((), s2)) ∧
  (∀ (s s1 s2 : State) (lo hi : Byte), pull8 s = .ok (lo, s1) → pull8 s1 = .ok (hi, s2) →
    pull16 s = .ok (wordOf hi lo, s2)) ∧
  (∀ (s : State) (v : Byte) (f : Fault),
    (memWrite (stackAddress s.sp) v s = .error f → push8 v s = .error f) ∧
    (memRead (stackAddress (s.sp + 1)) { s with sp := s.sp + 1 } = .error f → pull8 s = .error f) ∧
    (pull8 s = .error f → pull16 s = .error f) ∧
    ∀ w, push8 (highByte w) s = .error f → push16 w s = .error f) ∧
  (∀ (s s1 : State) (f : Fault),
    (∀ w, push8 (highByte w) s = .ok ((), s1) → push8 (lowByte w) s1 = .error f →
      push16 w s = .error f) ∧
    ∀ lo, pull8 s = .ok (lo, s1) → pull8 s1 = .error f → pull16 s = .error f) ∧
  (∀ (s : State) (w : Word) (k k' : Nat), s.mem.wf = true → s.RamAt (stackAddress s.sp) k →
    s.RamAt (stackAddress (s.sp - 1)) k' → k ≠ k' →
    ∃ t, push16 w s = .ok ((), t) ∧ t.sp = s.sp - 2 ∧ pull16 t = .ok (w, { t with sp := s.sp }))

/-- R270, R272: PHA and PHP push; on a backing byte exactly that byte and SP change. Rests on what
the spec marks as its own: D9, D17 and general knowledge (R270, R272), taken up in log 22, log
23. -/
def Obligations.PushInstructions : Prop :=
  (TableSays .pha 0x48#8 1 3 0 ∧ TableSays .php 0x08#8 1 3 0) ∧
  ∀ s : State,
    (∀ t, push8 s.a s = .ok ((), t) → exec .pha s = .next t) ∧
    (∀ t, push8 (s.p ||| 0x30#8) s = .ok ((), t) → exec .php s = .next t) ∧
    ∀ k, s.writeSlot (stackAddress s.sp) = some (.byte k) →
      exec .pha s = .next { s with mem := s.mem.store k s.a, sp := s.sp - 1 } ∧
      exec .php s = .next { s with mem := s.mem.store k (s.p ||| 0x30#8), sp := s.sp - 1 }

/-- R271, R273: PLA sets Z and N; PLP keeps the stored Break and Unused bits. Rests on what the spec
marks as its own: D10, D12, D17 and general knowledge (R271, R273), taken up in log 22, log 23. -/
def Obligations.PullInstructions : Prop :=
  (TableSays .pla 0x68#8 1 4 0 ∧ TableSays .plp 0x28#8 1 4 0) ∧
  (∀ (s t : State) (v : Byte), pull8 s = .ok (v, t) →
    exec .pla s = .next { t with a := v, p := withZN v t.p } ∧
    exec .plp s = .next { t with p := (v &&& 0xCF#8) ||| (t.p &&& 0x30#8) }) ∧
  (∀ (s : State) (v : Byte), s.peek (stackAddress (s.sp + 1)) = some v →
    exec .pla s = .next { s with sp := s.sp + 1, a := v, p := withZN v s.p } ∧
    exec .plp s = .next { s with sp := s.sp + 1, p := (v &&& 0xCF#8) ||| (s.p &&& 0x30#8) })

/-- R274, R275: JSR pushes the address of its last byte, RTS pulls and adds 1; on RAM RTS after JSR
comes back to the instruction after the JSR with SP restored. Rests on what the spec marks as its
own: D17, D27 and general knowledge (R274, R275), taken up in log 23. -/
def Obligations.SubroutineCallAndReturn : Prop :=
  (∀ w : Word, TableSays (.jsr w) 0x20#8 3 6 0) ∧ TableSays .rts 0x60#8 1 6 0 ∧
  (∀ (s t : State) (w : Word),
    push16 (s.pc - 1) { s with events := { s.events with crossed := false } } = .ok ((), t) →
    exec (.jsr w) s = .next { t with pc := w }) ∧
  (∀ (s t : State) (w : Word), pull16 s = .ok (w, t) → exec .rts s = .next { t with pc := w + 1 }) ∧
  (∀ (s : State) (w : Word) (k k' : Nat), s.mem.wf = true → s.RamAt (stackAddress s.sp) k →
    s.RamAt (stackAddress (s.sp - 1)) k' → k ≠ k' →
    ∃ t u, exec (.jsr w) s = .next t ∧ t.pc = w ∧ t.sp = s.sp - 2 ∧
      t.mem = (s.mem.store k (highByte (s.pc - 1))).store k' (lowByte (s.pc - 1)) ∧
      t.a = s.a ∧ t.x = s.x ∧ t.y = s.y ∧ t.p = s.p ∧
      exec .rts t = .next u ∧ u.pc = s.pc ∧ u.sp = s.sp)

/-- R276: BRK takes the software interrupt. The stack slots are those of SP, SP - 1 and SP - 2; the
vector is read after the pushes. Rests on what the spec marks as its own: D9, D17, D24, D25, D27 and
general knowledge (R276), taken up in log 22, log 23, log 28. -/
def Obligations.BrkTakesTheSoftwareInterrupt : Prop :=
  TableSays .brk 0x00#8 1 7 0 ∧
  (∀ (s s1 s2 s3 : State) (w : Word), push16 (s.pc + 1) s = .ok ((), s1) →
    push8 (s1.p ||| 0x30#8) s1 = .ok ((), s2) →
    memReadWord 0xFFFE#16 { s2 with p := s2.p ||| 0x04#8 } = .ok (w, s3) →
    exec .brk s = .next { s3 with pc := w }) ∧
  (∀ (s : State) (k1 k2 k3 : Nat) (lo hi : Byte) (m : Memory),
    s.writeSlot (stackAddress s.sp) = some (.byte k1) →
    s.writeSlot (stackAddress (s.sp - 1)) = some (.byte k2) →
    s.writeSlot (stackAddress (s.sp - 2)) = some (.byte k3) →
    m = ((s.mem.store k1 (highByte (s.pc + 1))).store k2 (lowByte (s.pc + 1))).store k3 (s.p ||| 0x30#8) →
    ({ s with mem := m } : State).peek 0xFFFE#16 = some lo →
    ({ s with mem := m } : State).peek 0xFFFF#16 = some hi →
    exec .brk s = .next { s with
      mem := m, sp := s.sp - 3, p := s.p ||| 0x04#8, pc := wordOf hi lo })

/-- R277: RTI restores the status, but its stored Break and Unused bits, and PC with nothing added.
Rests on what the spec marks as its own: D10, D17, D27 and general knowledge (R277), taken up in log
22, log 23. -/
def Obligations.RtiRestoresStatusAndPc : Prop :=
  TableSays .rti 0x40#8 1 6 0 ∧
  (∀ (s s1 s2 : State) (b : Byte) (w : Word), pull8 s = .ok (b, s1) →
    pull16 { s1 with p := (b &&& 0xCF#8) ||| (s1.p &&& 0x30#8) } = .ok (w, s2) →
    exec .rti s = .next { s2 with pc := w }) ∧
  (∀ (s : State) (b lo hi : Byte), s.peek (stackAddress (s.sp + 1)) = some b →
    s.peek (stackAddress (s.sp + 2)) = some lo → s.peek (stackAddress (s.sp + 3)) = some hi →
    exec .rti s = .next { s with
      sp := s.sp + 3, p := (b &&& 0xCF#8) ||| (s.p &&& 0x30#8), pc := wordOf hi lo })

/-- The frame of the stack instructions where no device is mapped: A, X, Y, flags, and every address
that does not read from a byte that SP, SP - 1 or SP - 2 writes to; the pulls leave all of memory.
Rests on what the spec marks as its own: D9, D10, D17 and general knowledge (R150 to R153, R270 to
R277), taken up in log 22, log 23. -/
def Obligations.StackInstructionsFrame : Prop :=
  ∀ (i : Instr) (s t : State),
    i.mnemonic ∈ [Mnemonic.pha, .php, .jsr, .brk, .pla, .plp, .rts, .rti] →
    s.mem.plain = true → s.mem.wf = true → exec i s = .next t →
    SameButProgram s t ∧ (i.mnemonic ≠ .pla → t.a = s.a) ∧ t.x = s.x ∧ t.y = s.y ∧
    (i.mnemonic ∈ [Mnemonic.pha, .php, .jsr, .rts] → t.p = s.p) ∧
    (i.mnemonic = .pla → SameFlagsBut [.z, .n] s t) ∧ (i.mnemonic = .brk → SameFlagsBut [.i] s t) ∧
    (i.mnemonic ∈ [Mnemonic.plp, .rti] → SameFlagsBut [.c, .z, .i, .d, .v, .n] s t) ∧
    (i.mnemonic ∈ [Mnemonic.pha, .php, .pla, .plp] → t.pc = s.pc) ∧
    (i.mnemonic ∈ [Mnemonic.pla, .plp, .rts, .rti] → t.mem = s.mem ∧ SameReads s t) ∧
    (∀ b : Word,
      (∀ sp ∈ (if i.mnemonic ∈ [Mnemonic.pha, .php] then [s.sp] else
          if i.mnemonic = .jsr then [s.sp, s.sp - 1] else
          if i.mnemonic = .brk then [s.sp, s.sp - 1, s.sp - 2] else []),
        ∀ k, s.writeSlot (stackAddress sp) = some (.byte k) → s.readSlot b ≠ some (.byte k)) →
      t.peek b = s.peek b)

/-! ## Whole-machine rules over all instructions -/

/-- Every instruction completes where every address is RAM (20_memory.md R76), leaves every address
RAM, and changes nothing but what a program can change. Rests on what the spec marks as its own: D23
(R76). -/
def Obligations.EveryInstructionCompletesOnRam : Prop :=
  ∀ (i : Instr) (s : State), s.AllRam → ∃ t, exec i s = .next t ∧ t.AllRam ∧ SameButProgram s t

/-- 40_step_addressing_flags.md R121, R123: a fault of an access ends the instruction with that
fault, each access of each instruction, and each fetch of the step; a faulting opcode fetch leaves
PC. Rests on what the spec marks as its own: D28 (R121, R123, R303), taken up in log 14. -/
def Obligations.FaultingAccessEndsTheInstruction : Prop :=
  (∀ (i : Instr) (s : State) (value : Op Byte) (f : Fault),
    i.mnemonic ∈ [Mnemonic.lda, .ldx, .ldy, .adc, .sbc, .and, .ora, .eor, .cmp, .cpx, .cpy, .bit] →
    valueOf i.operand = some value → value s = .error f → exec i s = .fault f) ∧
  (∀ (i : Instr) (s : State) (address : Op Word) (f : Fault),
    i.mnemonic ∈ [Mnemonic.sta, .stx, .sty, .inc, .dec, .asl, .lsr, .rol, .ror, .jmp, .jsr] →
    addressOf i.operand = some address → address s = .error f → exec i s = .fault f) ∧
  (∀ (i : Instr) (s s1 : State) (address : Op Word) (addr : Word) (f : Fault),
    i.mnemonic ∈ [Mnemonic.inc, .dec, .asl, .lsr, .rol, .ror] → addressOf i.operand = some address →
    address s = .ok (addr, s1) → memRead addr s1 = .error f → exec i s = .fault f) ∧
  (∀ (i : Instr) (s s1 s2 : State) (address : Op Word) (addr : Word) (v r : Byte) (f : Fault),
    addressOf i.operand = some address → address s = .ok (addr, s1) → memRead addr s1 = .ok (v, s2) →
    (i.mnemonic = .inc ∧ r.toNat = (v.toNat + 1) % 256 ∨
      i.mnemonic = .dec ∧ r.toNat = (v.toNat + 255) % 256 ∨
      i.mnemonic = .asl ∧ r = (shiftLeft v (getFlag .c s2.p)).value ∨
      i.mnemonic = .lsr ∧ r = (shiftRight v (getFlag .c s2.p)).value ∨
      i.mnemonic = .rol ∧ r = (rotateLeft v (getFlag .c s2.p)).value ∨
      i.mnemonic = .ror ∧ r = (rotateRight v (getFlag .c s2.p)).value) →
    memWrite addr r s2 = .error f → exec i s = .fault f) ∧
  (∀ (i : Instr) (s s1 : State) (address : Op Word) (addr : Word) (r : Byte) (f : Fault),
    (i.mnemonic = .sta ∧ r = s1.a ∨ i.mnemonic = .stx ∧ r = s1.x ∨ i.mnemonic = .sty ∧ r = s1.y) →
    addressOf i.operand = some address → address s = .ok (addr, s1) →
    memWrite addr r s1 = .error f → exec i s = .fault f) ∧
  (∀ (s : State) (f : Fault),
    (push8 s.a s = .error f → exec .pha s = .fault f) ∧
    (push8 (s.p ||| 0x30#8) s = .error f → exec .php s = .fault f) ∧
    (pull8 s = .error f → exec .pla s = .fault f ∧ exec .plp s = .fault f ∧ exec .rti s = .fault f) ∧
    (pull16 s = .error f → exec .rts s = .fault f) ∧
    (∀ w, push16 (s.pc - 1) { s with events := { s.events with crossed := false } } = .error f →
      exec (.jsr w) s = .fault f) ∧
    (push16 (s.pc + 1) s = .error f → exec .brk s = .fault f)) ∧
  (∀ (s s1 : State) (f : Fault), push16 (s.pc + 1) s = .ok ((), s1) →
    (push8 (s1.p ||| 0x30#8) s1 = .error f → exec .brk s = .fault f) ∧
    (∀ s2, push8 (s1.p ||| 0x30#8) s1 = .ok ((), s2) →
      memReadWord 0xFFFE#16 { s2 with p := s2.p ||| 0x04#8 } = .error f → exec .brk s = .fault f)) ∧
  (∀ (s s1 : State) (b : Byte) (f : Fault), pull8 s = .ok (b, s1) →
    pull16 { s1 with p := (b &&& 0xCF#8) ||| (s1.p &&& 0x30#8) } = .error f →
    exec .rti s = .fault f) ∧
  (∀ s s1 : State, s.inCall = true → beginIteration s = .ok ((), s1) →
    (s1.readSlot s1.pc = none →
      step s = .fault (.invalidMemoryAccess s1.pc.toNat .read s1.pc s1)) ∧
    (∀ f, memRead s1.pc s1 = .error f → step s = .fault f) ∧
    (∀ (op : Byte) (s2 : State) (row : TableRow), memRead s1.pc s1 = .ok (op, s2) →
      findRow s2.config.table op = some row →
      (∀ f, 2 ≤ row.mode.size → memRead (s2.pc + 1) { s2 with pc := s2.pc + 1 } = .error f →
        step s = .fault f) ∧
      (∀ (lo : Byte) (s3 : State) (f : Fault), row.mode.size = 3 →
        memRead (s2.pc + 1) { s2 with pc := s2.pc + 1 } = .ok (lo, s3) →
        memRead (s3.pc + 1) { s3 with pc := s3.pc + 1 } = .error f → step s = .fault f)))

/-- 10_state.md R21, R22, R23, R34: which instructions write A, X, Y, SP and PC. Rests on what the
spec marks as its own: general knowledge and D16 (R21 to R23, R34). -/
def Obligations.OnlyTheirWritersChangeRegisters : Prop :=
  ∀ (i : Instr) (s t : State), exec i s = .next t →
    (t.a ≠ s.a → i.mnemonic ∈ [Mnemonic.lda, .adc, .sbc, .and, .ora, .eor, .pla, .txa, .tya] ∨
      i.operand = .accumulator) ∧
    (t.x ≠ s.x → i.mnemonic ∈ [Mnemonic.ldx, .tax, .tsx, .inx, .dex]) ∧
    (t.y ≠ s.y → i.mnemonic ∈ [Mnemonic.ldy, .tay, .iny, .dey]) ∧
    (t.sp ≠ s.sp → i.mnemonic ∈ [Mnemonic.txs, .pha, .php, .pla, .plp, .jsr, .rts, .brk, .rti]) ∧
    (t.pc ≠ s.pc → i.mnemonic ∈ [Mnemonic.jmp, .jsr, .rts, .rti, .brk] ∨ isRelative i.operand = true)

/-- 10_state.md R25 to R32: which instructions write which flag. Rests on what the spec marks as its
own: general knowledge, D3, D10 and D25 (R25 to R32), taken up in log 22. -/
def Obligations.OnlyTheirWritersChangeFlags : Prop :=
  ∀ (i : Instr) (s t : State), exec i s = .next t →
    (t.flag .c ≠ s.flag .c → i.mnemonic ∈ [Mnemonic.adc, .sbc, .cmp, .cpx, .cpy, .asl, .lsr, .rol, .ror,
      .clc, .sec, .plp, .rti]) ∧
    (t.flag .z ≠ s.flag .z ∨ t.flag .n ≠ s.flag .n → i.mnemonic ∈ [Mnemonic.lda, .ldx, .ldy, .tax, .tay,
      .txa, .tya, .tsx, .pla, .and, .ora, .eor, .inc, .dec, .inx, .iny, .dex, .dey, .asl, .lsr, .rol,
      .ror, .adc, .sbc, .cmp, .cpx, .cpy, .bit, .plp, .rti]) ∧
    (t.flag .i ≠ s.flag .i → i.mnemonic ∈ [Mnemonic.sei, .cli, .brk, .plp, .rti]) ∧
    (t.flag .d ≠ s.flag .d → i.mnemonic ∈ [Mnemonic.sed, .cld, .plp, .rti]) ∧
    (t.flag .v ≠ s.flag .v → i.mnemonic ∈ [Mnemonic.adc, .sbc, .bit, .clv, .plp, .rti]) ∧
    t.flag .b = s.flag .b ∧ t.flag .u = s.flag .u

/-- 10_state.md R29, R30: during a call the stored Break and Unused bits change nothing but
themselves: a step from a state with them turned over is the same step with them turned over. Rests
on what the spec marks as its own: D9, D10 and a [derived] sentence (R29, R30), taken up in log
22. -/
def Obligations.ReservedFlagsAreUnobservable : Prop :=
  ∀ (m : Byte) (s : State), s.inCall = true →
    step (s.flipReserved m) = mapResult (State.flipReserved m) (step s)

/-- 10_state.md R35, 60_exceptions.md R314: where no device is mapped an instruction neither reads nor
writes the interrupt registry, and it writes no counter, option, parameter or mapping. -/
def Obligations.InstructionsLeaveTheRegistryAlone : Prop :=
  (∀ (i : Instr) (s t : State), s.mem.plain = true → exec i s = .next t → SameButProgram s t) ∧
  (∀ (i : Instr) (s : State) (irq : List IrqSource) (nmi : List String), s.mem.plain = true →
    exec i (s.withRegistry irq nmi) = mapResult (State.withRegistry irq nmi) (exec i s))

/-! ## Interrupts (60_exceptions.md) -/

/-- R310 to R313: the registry operations of the host. Rests on what the spec marks as its own: D29
(R310 to R312). -/
def Obligations.RegistryIsAMapAndASet : Prop :=
  (∀ (irq : List IrqSource) (name : String) (auto : Bool) (e : IrqSource),
    (e ∈ addIrq irq name auto ↔ e = ⟨name, auto⟩ ∨ e ∈ irq ∧ e.name ≠ name) ∧
    (e ∈ removeIrq irq name ↔ e ∈ irq ∧ e.name ≠ name) ∧
    ((irq.map IrqSource.name).Nodup → ((addIrq irq name auto).map IrqSource.name).Nodup ∧
      ((removeIrq irq name).map IrqSource.name).Nodup)) ∧
  (∀ (nmi : List String) (name n : String),
    (n ∈ addNmi nmi name ↔ n = name ∨ n ∈ nmi) ∧ (n ∈ removeNmi nmi name ↔ n ∈ nmi ∧ n ≠ name) ∧
    (nmi.Nodup → (addNmi nmi name).Nodup ∧ (removeNmi nmi name).Nodup)) ∧
  (∀ (s : State) (name : String) (auto : Bool),
    applyAction (.addIrqSource name auto) s = .ok ((), { s with irq := addIrq s.irq name auto }) ∧
    applyAction (.removeIrqSource name) s = .ok ((), { s with irq := removeIrq s.irq name }) ∧
    applyAction (.addNmiSource name) s = .ok ((), { s with nmi := addNmi s.nmi name }) ∧
    applyAction (.removeNmiSource name) s = .ok ((), { s with nmi := removeNmi s.nmi name }) ∧
    (s.irqLine = true ↔ s.irq ≠ []) ∧ (s.nmiLine = true ↔ s.nmi ≠ []))

/-- R322: interrupt entry. The stack slots are those of SP, SP - 1 and SP - 2; the vector is read
after the pushes; both cycle counters grow by INT_CYCLES and nothing else changes. In general the
entry is a push of PC, a push of the status copy and a read of the vector, each in the state the one
before left (a device hook may have run), and a fault of any is the fault of the entry. Rests on
what the spec marks as its own: D7, D9, D17, D24, D25, D27, D28 and general knowledge (R322, R303),
taken up in log 17, log 22, log 23, log 28. -/
def Obligations.InterruptEntry : Prop :=
  (∀ (s : State) (vector : Word) (k1 k2 k3 : Nat) (lo hi : Byte) (m : Memory),
    s.writeSlot (stackAddress s.sp) = some (.byte k1) →
    s.writeSlot (stackAddress (s.sp - 1)) = some (.byte k2) →
    s.writeSlot (stackAddress (s.sp - 2)) = some (.byte k3) →
    m = ((s.mem.store k1 (highByte s.pc)).store k2 (lowByte s.pc)).store k3
      ((s.p &&& 0xEF#8) ||| 0x20#8) →
    ({ s with mem := m } : State).peek vector = some lo →
    ({ s with mem := m } : State).peek (vector + 1) = some hi →
    serviceInterrupt vector s = .ok ((), { s with
      mem := m, sp := s.sp - 3, p := s.p ||| 0x04#8, pc := wordOf hi lo
      call := { s.call with cyclesConsumed := s.call.cyclesConsumed + s.config.intCycles }
      lifetime := { s.lifetime with
        cyclesConsumed := s.lifetime.cyclesConsumed + s.config.intCycles } })) ∧
  (∀ (s s1 s2 s3 : State) (vector w : Word), push16 s.pc s = .ok ((), s1) →
    push8 ((s1.p &&& 0xEF#8) ||| 0x20#8) s1 = .ok ((), s2) →
    memReadWord vector { s2 with p := s2.p ||| 0x04#8 } = .ok (w, s3) →
    serviceInterrupt vector s = .ok ((), { s3 with
      pc := w
      call := { s.call with cyclesConsumed := s.call.cyclesConsumed + s.config.intCycles }
      lifetime := { s.lifetime with
        cyclesConsumed := s.lifetime.cyclesConsumed + s.config.intCycles } })) ∧
  (∀ (s : State) (vector : Word) (f : Fault),
    (push16 s.pc s = .error f → serviceInterrupt vector s = .error f) ∧
    ∀ s1, push16 s.pc s = .ok ((), s1) →
      (push8 ((s1.p &&& 0xEF#8) ||| 0x20#8) s1 = .error f → serviceInterrupt vector s = .error f) ∧
      ∀ s2, push8 ((s1.p &&& 0xEF#8) ||| 0x20#8) s1 = .ok ((), s2) →
        memReadWord vector { s2 with p := s2.p ||| 0x04#8 } = .error f →
        serviceInterrupt vector s = .error f)

/-- R320, R321, R323, R324: NMI first and whatever I holds, IRQ only with I clear, at most one a
poll; the acknowledgement of each. Rests on what the spec marks as its own: D8 and D12 (R320, R321),
taken up in log 17. -/
def Obligations.PollServicesAtMostOneInterrupt : Prop :=
  ∀ s : State,
    (s.nmi ≠ [] → ∀ t, serviceInterrupt 0xFFFA#16 s = .ok ((), t) →
      (t.config.nmiAck = .clearOnService → poll s = .ok ((), { t with nmi := [] })) ∧
      (t.config.nmiAck = .level → poll s = .ok ((), t))) ∧
    (s.nmi = [] → s.irq ≠ [] → s.flag .i = false → ∀ t, serviceInterrupt 0xFFFE#16 s = .ok ((), t) →
      poll s = .ok ((), { t with irq := t.irq.filter (fun e => !e.autoAck) })) ∧
    (s.nmi = [] → (s.irq = [] ∨ s.flag .i = true) → poll s = .ok ((), s)) ∧
    (∀ f, (s.nmi ≠ [] → serviceInterrupt 0xFFFA#16 s = .error f → poll s = .error f) ∧
      (s.nmi = [] → s.irq ≠ [] → s.flag .i = false → serviceInterrupt 0xFFFE#16 s = .error f →
        poll s = .error f))

/-- R322, R326 with 46 R277: an RTI at the head of a handler resumes exactly where the interrupt was
taken: PC, SP and all of P as before, A, X, Y untouched, on RAM with three distinct stack bytes.
Rests on what the spec marks as its own: D9, D10, D17 and D27 (R322, R277), taken up in log 22, log
23. -/
def Obligations.RtiResumesWhereTheInterruptWasTaken : Prop :=
  ∀ (s t : State) (vector : Word) (k1 k2 k3 : Nat), s.mem.wf = true →
    s.RamAt (stackAddress s.sp) k1 → s.RamAt (stackAddress (s.sp - 1)) k2 →
    s.RamAt (stackAddress (s.sp - 2)) k3 → k1 ≠ k2 → k1 ≠ k3 → k2 ≠ k3 →
    (∃ j, s.readSlot vector = some (.byte j)) → (∃ j, s.readSlot (vector + 1) = some (.byte j)) →
    serviceInterrupt vector s = .ok ((), t) →
    t.flag .i = true ∧
    ∃ u, exec .rti t = .next u ∧ u.pc = s.pc ∧ u.sp = s.sp ∧ u.p = s.p ∧ u.a = s.a ∧ u.x = s.x ∧
      u.y = s.y

/-! ## The run loop (40_step_addressing_flags.md R120 to R122, 60_exceptions.md R330 to R336) -/

/-- R120: when the bytes at PC decode to an instruction the table registers, the step is that
instruction's meaning in the state with PC past its bytes, between the items R330 puts around it;
and on a quiet state those items only clear the transient report before, and fold and evaluate the
stop conditions after. R94, R8: the same for every row of any table, whatever byte, mnemonic and
mode it registers: a documented pair runs that instruction, any other the mnemonic's behavior on
what the mode gives. Rests on what the spec marks as its own: D19 (R330). Rests on the model's
choice: log 5, log 12, log 13, log 32. -/
def Obligations.StepRunsTheDecodedInstruction : Prop :=
  (∀ (s s1 : State) (i : Instr) (bytes : List Byte) (row : TableRow), s.inCall = true →
    beginIteration s = .ok ((), s1) → s1.BytesAt s1.pc bytes → decode bytes = .ok (i, []) →
    i.wellFormed s1.config.table = true → findRow s1.config.table i.opcode = some row →
    step s =
      match exec i { s1 with pc := s1.pc + BitVec.ofNat 16 bytes.length } with
      | .next t =>
        complete (concludeStep s1.pc ⟨i.opcode, stepCycles t.config row t.events, false⟩) t
      | .fault f => .fault f
      | .refused r => .refused r) ∧
  (∀ (s s1 : State) (op : Byte) (o : Operand) (row : TableRow) (m : Mnemonic), s.inCall = true →
    beginIteration s = .ok ((), s1) → s1.BytesAt s1.pc (op :: o.bytes) →
    findRow s1.config.table op = some row → row.behavior = .documented m → row.mode = o.mode →
    ∀ s2 : State, s2 = { s1 with pc := s1.pc + BitVec.ofNat 16 row.mode.size } → ∀ result : Result,
    (∃ i : Instr, i.mnemonic = m ∧ i.operand = o ∧ result = exec i s2) ∨
      ((∀ i : Instr, ¬(i.mnemonic = m ∧ i.operand = o)) ∧
        ∃ act, behavior m o = some act ∧ result = complete act s2) →
    step s =
      match result with
      | .next t => complete (concludeStep s1.pc ⟨op, stepCycles t.config row t.events, false⟩) t
      | .fault f => .fault f
      | .refused r => .refused r) ∧
  (∀ s : State, s.NoInterrupt → s.NoObservers →
    beginIteration s = .ok ((), { s with events := StepEvents.none })) ∧
  (∀ (t : State) (pc0 : Word) (r : StepResult), t.NoInterrupt → t.NoObservers → r.unknown = false →
    concludeStep pc0 r t = .ok ((), evaluateStop pc0 r.opcode (foldResult pc0 r t)))

/-- R122, R302, R334: an opcode byte outside the table is one byte and one cycle, changes no
register but PC, no flag and no memory, is counted, and is a fault only under
UnknownInstructionIsFatal, which leaves the state with the step already folded. Rests on what the
spec marks as its own: D18 and D28 (R333, R334), taken up in log 14. -/
def Obligations.UnknownOpcodeIsCountedOrFatal : Prop :=
  ∀ (s t : State) (op : Byte), s.inCall = true → s.NoInterrupt → s.NoObservers →
    s.peek s.pc = some op → findRow s.config.table op = none →
    t = { s with
      pc := s.pc + 1, events := StepEvents.none
      call := ⟨s.call.cyclesConsumed + 1, s.call.instructionsExecuted + 1,
        s.call.unknownOpcodeCount + 1, some op, some s.pc⟩
      lifetime := ⟨s.lifetime.cyclesConsumed + 1, s.lifetime.instructionsExecuted + 1,
        s.lifetime.unknownOpcodeCount + 1, some op, some s.pc⟩ } →
    (s.options.unknownInstructionIsFatal = true → step s = .fault (.unknownOpcode op s.pc t)) ∧
    (s.options.unknownInstructionIsFatal = false → step s = .next (evaluateStop s.pc op t))

/-- R333: the fold, for both copies, and nothing else. R335, R336: each stop condition holds exactly
when its row says, and the call ends with the set of all that hold. Rests on what the spec marks as
its own: D18 (R333). -/
def Obligations.FoldAndStopConditions : Prop :=
  (∀ (s : State) (pc0 : Word) (op : Byte) (n : Nat) (unknown : Bool),
    foldResult pc0 ⟨op, n, unknown⟩ s = { s with
      call := ⟨s.call.cyclesConsumed + n, s.call.instructionsExecuted + 1,
        s.call.unknownOpcodeCount + unknown.toNat, some op, some pc0⟩
      lifetime := ⟨s.lifetime.cyclesConsumed + n, s.lifetime.instructionsExecuted + 1,
        s.lifetime.unknownOpcodeCount + unknown.toNat, some op, some pc0⟩ }) ∧
  (∀ (s : State) (pc0 : Word) (op : Byte) (held : List StopReason),
    held = stopConditions s.options s.call s.pc pc0 op →
    (.cycleBudget ∈ held ↔ ∃ n, s.options.cycleBudget = some n ∧ n ≤ s.call.cyclesConsumed) ∧
    (.instructionBudget ∈ held ↔
      ∃ n, s.options.maxNumberOfInstructions = some n ∧ n ≤ s.call.instructionsExecuted) ∧
    (.pcReached ∈ held ↔ s.options.stopAtPC = some s.pc) ∧
    (.instructionAtPcExecuted ∈ held ↔ s.options.stopAfterInstructionAtPC = some pc0) ∧
    (.opcodeExecuted ∈ held ↔ s.options.stopAfterOpcode = some op) ∧
    (.opcodeInSet ∈ held ↔ op ∈ s.options.stopAfterOpcodes) ∧
    (held = [] → evaluateStop pc0 op s = s) ∧
    (held ≠ [] → evaluateStop pc0 op s = { s with inCall := false, stopReasons := held }))

/-- 60_exceptions.md R330, R347 and 10_state.md R36, R40: between calls the host's pending
operations are performed one a step; a Run begins a call with a fresh call-scoped ExecutionState;
with nothing pending everything survives; the host writes any register, registers observers (R341),
and reads and writes memory, words and ranges (20_memory.md R54, R55, R61). Rests on the model's
step between calls, its bound of bulk access and its count of observers (log 11, log 10, log 12),
and on D15 (R61; log 27). -/
def Obligations.HostActsBetweenCalls : Prop :=
  (∀ s : State, s.inCall = false →
    (s.hostQueue = [] → step s = .next s) ∧
    (∀ op rest, s.hostQueue = op :: rest →
      step s = complete (hostOperation op) { s with hostQueue := rest }) ∧
    (∀ options rest, s.hostQueue = .run options :: rest →
      step s = .next { s with hostQueue := rest, options := options, inCall := true, stopReasons := [],
                              call := ⟨0, 0, 0, none, none⟩ })) ∧
  (∀ (s : State) (w : Word) (v : Byte),
    hostOperation (.setPc w) s = .ok ((), { s with pc := w }) ∧
    hostOperation (.setSp v) s = .ok ((), { s with sp := v }) ∧
    hostOperation (.setA v) s = .ok ((), { s with a := v }) ∧
    hostOperation (.setX v) s = .ok ((), { s with x := v }) ∧
    hostOperation (.setY v) s = .ok ((), { s with y := v }) ∧
    hostOperation (.setP v) s = .ok ((), { s with p := v }) ∧
    hostOperation (.addObserver .beforeInstruction) s =
      .ok ((), { s with observers := { s.observers with before := s.observers.before + 1 } }) ∧
    hostOperation (.addObserver .afterInstruction) s =
      .ok ((), { s with observers := { s.observers with after := s.observers.after + 1 } }) ∧
    hostOperation (.addObserver .unknownOpcode) s =
      .ok ((), { s with observers := { s.observers with unknown := s.observers.unknown + 1 } }) ∧
    hostOperation (.write w v) s = memWrite w v s ∧
    (∀ u, hostOperation (.writeWord w u) s = memWriteWord w u s) ∧
    (∀ b t, memRead w s = .ok (b, t) → hostOperation (.read w) s = .ok ((), { t with hostBytes := [b] })) ∧
    (∀ u t, memReadWord w s = .ok (u, t) →
      hostOperation (.readWord w) s = .ok ((), { t with hostBytes := [lowByte u, highByte u] })) ∧
    (∀ f, (memRead w s = .error f → hostOperation (.read w) s = .error f) ∧
      (memReadWord w s = .error f → hostOperation (.readWord w) s = .error f))) ∧
  (∀ (s t : State) (addr n : Nat) (bytes : List Byte), bulkRead addr n s = .ok (bytes, t) →
    hostOperation (.bulkRead addr n) s = .ok ((), { t with hostBytes := bytes }) ∧ bytes.length = n) ∧
  (∀ (s : State) (addr n : Nat) (bytes : List Byte),
    hostOperation (.bulkWrite addr bytes) s = bulkWrite addr bytes s ∧
    (∀ f, bulkRead addr n s = .error f → hostOperation (.bulkRead addr n) s = .error f)) ∧
  (∀ (s : State) (addr n : Nat) (v : Byte) (rest : List Byte),
    bulkRead addr 0 s = .ok ([], s) ∧ bulkWrite addr [] s = .ok ((), s) ∧
    (65536 ≤ addr →
      bulkRead addr (n + 1) s = .error (.invalidMemoryAccess addr .read s.pc s) ∧
      bulkWrite addr (v :: rest) s = .error (.invalidMemoryAccess addr .write s.pc s)) ∧
    (∀ a : Word, a.toNat = addr →
      (∀ f, (memRead a s = .error f → bulkRead addr (n + 1) s = .error f) ∧
        (memWrite a v s = .error f → bulkWrite addr (v :: rest) s = .error f)) ∧
      (∀ b t bytes u, memRead a s = .ok (b, t) → bulkRead (addr + 1) n t = .ok (bytes, u) →
        bulkRead addr (n + 1) s = .ok (b :: bytes, u)) ∧
      (∀ b t f, memRead a s = .ok (b, t) → bulkRead (addr + 1) n t = .error f →
        bulkRead addr (n + 1) s = .error f) ∧
      (∀ t, memWrite a v s = .ok ((), t) → bulkWrite addr (v :: rest) s = bulkWrite (addr + 1) rest t)))

/-! ## Reset (70_reset_and_hazards.md) -/

/-- R370: reset loads PC from `$FFFC`/`$FFFD` or the explicit start address, and writes nothing else
unless RESET_STATE pins a register. A faulting vector read is the fault of the reset with nothing
pinned written, since the vector is read first by the model's choice (log 33). Rests on what the
spec marks as its own: D11 and D24 (R370), taken up in log 20. Rests on the model's choice: log
33. -/
def Obligations.ResetLoadsThePc : Prop :=
  (∀ (s t : State) (w : Word), s.config.resetValues = ⟨none, none, none, none, none⟩ →
    memReadWord 0xFFFC#16 s = .ok (w, t) → resetMachine none s = .ok ((), { t with pc := w })) ∧
  (∀ (s : State) (f : Fault), memReadWord 0xFFFC#16 s = .error f → resetMachine none s = .error f) ∧
  (∀ (s : State) (start : Word), s.config.resetValues = ⟨none, none, none, none, none⟩ →
    resetMachine (some start) s = .ok ((), { s with pc := start })) ∧
  (∀ (s t : State) (start : Option Word), resetMachine start s = .ok ((), t) →
    (∀ v, s.config.resetValues.a = some v → t.a = v) ∧
    (∀ v, s.config.resetValues.x = some v → t.x = v) ∧
    (∀ v, s.config.resetValues.y = some v → t.y = v) ∧
    (∀ v, s.config.resetValues.sp = some v → t.sp = v) ∧
    (∀ v, s.config.resetValues.p = some v → t.p = v))

/-- The model's choice (log 1, log 2, log 3): State.reset is what the boot sequence of R373 makes of a
machine constructed with the default parameters and those launch values, on the platform of
20_memory.md R76. R94, R304, R372: a machine is constructed exactly when its memory has a size and a
configuration and no opcode byte is registered twice, with everything unmapped, the counters zero and
the registry empty; else the construction raises the reason (MEM_SIZE above 65536: log 9), the sizes
before the table where several hold, which is the model's choice (log 34), as it is to accept a row
of 0 cycles (log 36). -/
def Obligations.ResetStateIsTheBootedMachine : Prop :=
  (∃ s s1 s2, construct Config.default 0x0000#16 0xFF#8 0x00#8 0x00#8 0x00#8 0x00#8 = .ok s ∧
    hostOperation (.act (.mapRam none 0 ⟨0, 65536⟩ 0 none)) s = .ok ((), s1) ∧
    hostOperation (.reset none) s1 = .ok ((), s2) ∧
    hostOperation (.run ExecutionOptions.none) s2 = .ok ((), State.reset)) ∧
  (∀ (table : List TableRow) (row : TableRow),
    (findRow table row.opcode = none → registerOpcode table row = .ok (table ++ [row])) ∧
    (findRow table row.opcode ≠ none → registerOpcode table row = .error .duplicateOpcode)) ∧
  (∀ (c : Config) (pc : Word) (sp a x y p : Byte),
    (c.memSize = 0 → construct c pc sp a x y p = .error .zeroSizedMemory) ∧
    (65536 < c.memSize → construct c pc sp a x y p = .error .memoryTooLarge) ∧
    (1 ≤ c.memSize → c.memSize ≤ 65536 →
      (c.numConfigs = 0 → construct c pc sp a x y p = .error .noConfigurations) ∧
      (1 ≤ c.numConfigs →
        (¬(c.table.map TableRow.opcode).Nodup →
          construct c pc sp a x y p = .error .duplicateOpcode) ∧
        ((c.table.map TableRow.opcode).Nodup → ∃ s, construct c pc sp a x y p = .ok s ∧
          s.config = c ∧ s.pc = pc ∧ s.sp = sp ∧ s.a = a ∧ s.x = x ∧ s.y = y ∧ s.p = p ∧
          s.mem = ⟨[], [], [], 0⟩ ∧ s.irq = [] ∧ s.nmi = [] ∧ s.inCall = false ∧
          s.call = ⟨0, 0, 0, none, none⟩ ∧ s.lifetime = ⟨0, 0, 0, none, none⟩ ∧
          s.observers = ⟨0, 0, 0⟩))))

/-! ## The invariant -/

/-- Every step keeps the invariant (State.Inv), from every state that has it. The canonical form of
memory (log 2) and the limits of log 9 are the model's own; the other parts are ranges the spec
gives. -/
def Obligations.StepKeepsTheInvariant : Prop :=
  ∀ s t : State, s.Inv → step s = .next t → t.Inv

/-- The state after reset has the invariant. Rests on the model's reset state (log 1, log 2, log
3). -/
def Obligations.ResetHasTheInvariant : Prop := State.reset.Inv

/-! ## The items of an iteration (60_exceptions.md R320, R330, R341) -/

/-- R320, R330, R341: under POLL_POINT = before_step an iteration begins with the poll, then fires
the BeforeInstruction observers on what the poll left, then clears the transient report; under
after_step it begins without a poll. After the instruction the step's result is folded, under
after_step (and only then) the poll runs, the AfterInstruction observers fire, for an unknown opcode
its observers fire with the byte and the fatal policy decides, and then the stop conditions are
evaluated. A fault of any of these is the fault of the whole. Observers fire one after the other,
each one invocation. Rests on what the spec marks as its own: D12 and D19 (R320, R330, R341), taken
up in log 17. Rests on the model's choice: log 12. -/
def Obligations.IterationPollsAndFiresObservers : Prop :=
  (∀ s s1 : State,
    (s.config.pollPoint = .beforeStep ∧ poll s = .ok ((), s1) ∨
      s.config.pollPoint = .afterStep ∧ s1 = s) →
    (∀ s2, fireObservers .beforeInstruction s1.observers.before s1 = .ok ((), s2) →
      beginIteration s = .ok ((), { s2 with events := StepEvents.none })) ∧
    (∀ f, fireObservers .beforeInstruction s1.observers.before s1 = .error f →
      beginIteration s = .error f)) ∧
  (∀ (s : State) (f : Fault),
    (s.config.pollPoint = .beforeStep → poll s = .error f → beginIteration s = .error f) ∧
    (s.inCall = true → beginIteration s = .error f → step s = .fault f)) ∧
  (∀ (t t0 t1 : State) (pc0 : Word) (r : StepResult), t0 = foldResult pc0 r t →
    (t.config.pollPoint = .afterStep ∧ poll t0 = .ok ((), t1) ∨
      t.config.pollPoint = .beforeStep ∧ t1 = t0) →
    (∀ f, fireObservers .afterInstruction t1.observers.after t1 = .error f →
      concludeStep pc0 r t = .error f) ∧
    (∀ t2, fireObservers .afterInstruction t1.observers.after t1 = .ok ((), t2) →
      (r.unknown = false → concludeStep pc0 r t = .ok ((), evaluateStop pc0 r.opcode t2)) ∧
      (r.unknown = true →
        (∀ f, fireObservers (.unknownOpcode r.opcode) t2.observers.unknown t2 = .error f →
          concludeStep pc0 r t = .error f) ∧
        (∀ t3, fireObservers (.unknownOpcode r.opcode) t2.observers.unknown t2 = .ok ((), t3) →
          (t3.options.unknownInstructionIsFatal = true →
            concludeStep pc0 r t = .error (.unknownOpcode r.opcode pc0 t3)) ∧
          (t3.options.unknownInstructionIsFatal = false →
            concludeStep pc0 r t = .ok ((), evaluateStop pc0 r.opcode t3)))))) ∧
  (∀ (t : State) (pc0 : Word) (r : StepResult) (f : Fault), t.config.pollPoint = .afterStep →
    poll (foldResult pc0 r t) = .error f → concludeStep pc0 r t = .error f) ∧
  (∀ (call : HookCall) (n : Nat) (s : State),
    fireObservers call 0 s = .ok ((), s) ∧
    (∀ b t, invokeHook call s = .ok (b, t) → fireObservers call (n + 1) s = fireObservers call n t) ∧
    (∀ f, invokeHook call s = .error f → fireObservers call (n + 1) s = .error f))
end

