-- ==== Sys2Proof/Laws/State.lean ====
section
/-!
SUPPORT. The updates of the state: one lemma per field per update, so that no later proof unfolds a
record update; and the bits of the status register (10_state.md R24).
-/

namespace Sys2Proof.Machine

variable (s : State)

@[simp] theorem State.setA_config (v : Byte) : (s.setA v).config = s.config := rfl
@[simp] theorem State.setA_pc (v : Byte) : (s.setA v).pc = s.pc := rfl
@[simp] theorem State.setA_sp (v : Byte) : (s.setA v).sp = s.sp := rfl
@[simp] theorem State.setA_a (v : Byte) : (s.setA v).a = v := rfl
@[simp] theorem State.setA_x (v : Byte) : (s.setA v).x = s.x := rfl
@[simp] theorem State.setA_y (v : Byte) : (s.setA v).y = s.y := rfl
@[simp] theorem State.setA_p (v : Byte) : (s.setA v).p = s.p := rfl
@[simp] theorem State.setA_mem (v : Byte) : (s.setA v).mem = s.mem := rfl
@[simp] theorem State.setA_irq (v : Byte) : (s.setA v).irq = s.irq := rfl
@[simp] theorem State.setA_nmi (v : Byte) : (s.setA v).nmi = s.nmi := rfl
@[simp] theorem State.setA_call (v : Byte) : (s.setA v).call = s.call := rfl
@[simp] theorem State.setA_lifetime (v : Byte) : (s.setA v).lifetime = s.lifetime := rfl
@[simp] theorem State.setA_options (v : Byte) : (s.setA v).options = s.options := rfl
@[simp] theorem State.setA_inCall (v : Byte) : (s.setA v).inCall = s.inCall := rfl
@[simp] theorem State.setA_stopReasons (v : Byte) : (s.setA v).stopReasons = s.stopReasons := rfl
@[simp] theorem State.setA_observers (v : Byte) : (s.setA v).observers = s.observers := rfl
@[simp] theorem State.setA_events (v : Byte) : (s.setA v).events = s.events := rfl
@[simp] theorem State.setA_hostQueue (v : Byte) : (s.setA v).hostQueue = s.hostQueue := rfl
@[simp] theorem State.setA_hostBytes (v : Byte) : (s.setA v).hostBytes = s.hostBytes := rfl
@[simp] theorem State.setA_replies (v : Byte) : (s.setA v).replies = s.replies := rfl
@[simp] theorem State.setA_hookCalls (v : Byte) : (s.setA v).hookCalls = s.hookCalls := rfl
@[simp] theorem State.setA_freeCount (v : Byte) : (s.setA v).freeCount = s.freeCount := rfl

@[simp] theorem State.setX_config (v : Byte) : (s.setX v).config = s.config := rfl
@[simp] theorem State.setX_pc (v : Byte) : (s.setX v).pc = s.pc := rfl
@[simp] theorem State.setX_sp (v : Byte) : (s.setX v).sp = s.sp := rfl
@[simp] theorem State.setX_a (v : Byte) : (s.setX v).a = s.a := rfl
@[simp] theorem State.setX_x (v : Byte) : (s.setX v).x = v := rfl
@[simp] theorem State.setX_y (v : Byte) : (s.setX v).y = s.y := rfl
@[simp] theorem State.setX_p (v : Byte) : (s.setX v).p = s.p := rfl
@[simp] theorem State.setX_mem (v : Byte) : (s.setX v).mem = s.mem := rfl
@[simp] theorem State.setX_irq (v : Byte) : (s.setX v).irq = s.irq := rfl
@[simp] theorem State.setX_nmi (v : Byte) : (s.setX v).nmi = s.nmi := rfl
@[simp] theorem State.setX_call (v : Byte) : (s.setX v).call = s.call := rfl
@[simp] theorem State.setX_lifetime (v : Byte) : (s.setX v).lifetime = s.lifetime := rfl
@[simp] theorem State.setX_options (v : Byte) : (s.setX v).options = s.options := rfl
@[simp] theorem State.setX_inCall (v : Byte) : (s.setX v).inCall = s.inCall := rfl
@[simp] theorem State.setX_stopReasons (v : Byte) : (s.setX v).stopReasons = s.stopReasons := rfl
@[simp] theorem State.setX_observers (v : Byte) : (s.setX v).observers = s.observers := rfl
@[simp] theorem State.setX_events (v : Byte) : (s.setX v).events = s.events := rfl
@[simp] theorem State.setX_hostQueue (v : Byte) : (s.setX v).hostQueue = s.hostQueue := rfl
@[simp] theorem State.setX_hostBytes (v : Byte) : (s.setX v).hostBytes = s.hostBytes := rfl
@[simp] theorem State.setX_replies (v : Byte) : (s.setX v).replies = s.replies := rfl
@[simp] theorem State.setX_hookCalls (v : Byte) : (s.setX v).hookCalls = s.hookCalls := rfl
@[simp] theorem State.setX_freeCount (v : Byte) : (s.setX v).freeCount = s.freeCount := rfl

@[simp] theorem State.setY_config (v : Byte) : (s.setY v).config = s.config := rfl
@[simp] theorem State.setY_pc (v : Byte) : (s.setY v).pc = s.pc := rfl
@[simp] theorem State.setY_sp (v : Byte) : (s.setY v).sp = s.sp := rfl
@[simp] theorem State.setY_a (v : Byte) : (s.setY v).a = s.a := rfl
@[simp] theorem State.setY_x (v : Byte) : (s.setY v).x = s.x := rfl
@[simp] theorem State.setY_y (v : Byte) : (s.setY v).y = v := rfl
@[simp] theorem State.setY_p (v : Byte) : (s.setY v).p = s.p := rfl
@[simp] theorem State.setY_mem (v : Byte) : (s.setY v).mem = s.mem := rfl
@[simp] theorem State.setY_irq (v : Byte) : (s.setY v).irq = s.irq := rfl
@[simp] theorem State.setY_nmi (v : Byte) : (s.setY v).nmi = s.nmi := rfl
@[simp] theorem State.setY_call (v : Byte) : (s.setY v).call = s.call := rfl
@[simp] theorem State.setY_lifetime (v : Byte) : (s.setY v).lifetime = s.lifetime := rfl
@[simp] theorem State.setY_options (v : Byte) : (s.setY v).options = s.options := rfl
@[simp] theorem State.setY_inCall (v : Byte) : (s.setY v).inCall = s.inCall := rfl
@[simp] theorem State.setY_stopReasons (v : Byte) : (s.setY v).stopReasons = s.stopReasons := rfl
@[simp] theorem State.setY_observers (v : Byte) : (s.setY v).observers = s.observers := rfl
@[simp] theorem State.setY_events (v : Byte) : (s.setY v).events = s.events := rfl
@[simp] theorem State.setY_hostQueue (v : Byte) : (s.setY v).hostQueue = s.hostQueue := rfl
@[simp] theorem State.setY_hostBytes (v : Byte) : (s.setY v).hostBytes = s.hostBytes := rfl
@[simp] theorem State.setY_replies (v : Byte) : (s.setY v).replies = s.replies := rfl
@[simp] theorem State.setY_hookCalls (v : Byte) : (s.setY v).hookCalls = s.hookCalls := rfl
@[simp] theorem State.setY_freeCount (v : Byte) : (s.setY v).freeCount = s.freeCount := rfl

@[simp] theorem State.setSp_config (v : Byte) : (s.setSp v).config = s.config := rfl
@[simp] theorem State.setSp_pc (v : Byte) : (s.setSp v).pc = s.pc := rfl
@[simp] theorem State.setSp_sp (v : Byte) : (s.setSp v).sp = v := rfl
@[simp] theorem State.setSp_a (v : Byte) : (s.setSp v).a = s.a := rfl
@[simp] theorem State.setSp_x (v : Byte) : (s.setSp v).x = s.x := rfl
@[simp] theorem State.setSp_y (v : Byte) : (s.setSp v).y = s.y := rfl
@[simp] theorem State.setSp_p (v : Byte) : (s.setSp v).p = s.p := rfl
@[simp] theorem State.setSp_mem (v : Byte) : (s.setSp v).mem = s.mem := rfl
@[simp] theorem State.setSp_irq (v : Byte) : (s.setSp v).irq = s.irq := rfl
@[simp] theorem State.setSp_nmi (v : Byte) : (s.setSp v).nmi = s.nmi := rfl
@[simp] theorem State.setSp_call (v : Byte) : (s.setSp v).call = s.call := rfl
@[simp] theorem State.setSp_lifetime (v : Byte) : (s.setSp v).lifetime = s.lifetime := rfl
@[simp] theorem State.setSp_options (v : Byte) : (s.setSp v).options = s.options := rfl
@[simp] theorem State.setSp_inCall (v : Byte) : (s.setSp v).inCall = s.inCall := rfl
@[simp] theorem State.setSp_stopReasons (v : Byte) : (s.setSp v).stopReasons = s.stopReasons := rfl
@[simp] theorem State.setSp_observers (v : Byte) : (s.setSp v).observers = s.observers := rfl
@[simp] theorem State.setSp_events (v : Byte) : (s.setSp v).events = s.events := rfl
@[simp] theorem State.setSp_hostQueue (v : Byte) : (s.setSp v).hostQueue = s.hostQueue := rfl
@[simp] theorem State.setSp_hostBytes (v : Byte) : (s.setSp v).hostBytes = s.hostBytes := rfl
@[simp] theorem State.setSp_replies (v : Byte) : (s.setSp v).replies = s.replies := rfl
@[simp] theorem State.setSp_hookCalls (v : Byte) : (s.setSp v).hookCalls = s.hookCalls := rfl
@[simp] theorem State.setSp_freeCount (v : Byte) : (s.setSp v).freeCount = s.freeCount := rfl

@[simp] theorem State.setP_config (v : Byte) : (s.setP v).config = s.config := rfl
@[simp] theorem State.setP_pc (v : Byte) : (s.setP v).pc = s.pc := rfl
@[simp] theorem State.setP_sp (v : Byte) : (s.setP v).sp = s.sp := rfl
@[simp] theorem State.setP_a (v : Byte) : (s.setP v).a = s.a := rfl
@[simp] theorem State.setP_x (v : Byte) : (s.setP v).x = s.x := rfl
@[simp] theorem State.setP_y (v : Byte) : (s.setP v).y = s.y := rfl
@[simp] theorem State.setP_p (v : Byte) : (s.setP v).p = v := rfl
@[simp] theorem State.setP_mem (v : Byte) : (s.setP v).mem = s.mem := rfl
@[simp] theorem State.setP_irq (v : Byte) : (s.setP v).irq = s.irq := rfl
@[simp] theorem State.setP_nmi (v : Byte) : (s.setP v).nmi = s.nmi := rfl
@[simp] theorem State.setP_call (v : Byte) : (s.setP v).call = s.call := rfl
@[simp] theorem State.setP_lifetime (v : Byte) : (s.setP v).lifetime = s.lifetime := rfl
@[simp] theorem State.setP_options (v : Byte) : (s.setP v).options = s.options := rfl
@[simp] theorem State.setP_inCall (v : Byte) : (s.setP v).inCall = s.inCall := rfl
@[simp] theorem State.setP_stopReasons (v : Byte) : (s.setP v).stopReasons = s.stopReasons := rfl
@[simp] theorem State.setP_observers (v : Byte) : (s.setP v).observers = s.observers := rfl
@[simp] theorem State.setP_events (v : Byte) : (s.setP v).events = s.events := rfl
@[simp] theorem State.setP_hostQueue (v : Byte) : (s.setP v).hostQueue = s.hostQueue := rfl
@[simp] theorem State.setP_hostBytes (v : Byte) : (s.setP v).hostBytes = s.hostBytes := rfl
@[simp] theorem State.setP_replies (v : Byte) : (s.setP v).replies = s.replies := rfl
@[simp] theorem State.setP_hookCalls (v : Byte) : (s.setP v).hookCalls = s.hookCalls := rfl
@[simp] theorem State.setP_freeCount (v : Byte) : (s.setP v).freeCount = s.freeCount := rfl

@[simp] theorem State.setPc_config (v : Word) : (s.setPc v).config = s.config := rfl
@[simp] theorem State.setPc_pc (v : Word) : (s.setPc v).pc = v := rfl
@[simp] theorem State.setPc_sp (v : Word) : (s.setPc v).sp = s.sp := rfl
@[simp] theorem State.setPc_a (v : Word) : (s.setPc v).a = s.a := rfl
@[simp] theorem State.setPc_x (v : Word) : (s.setPc v).x = s.x := rfl
@[simp] theorem State.setPc_y (v : Word) : (s.setPc v).y = s.y := rfl
@[simp] theorem State.setPc_p (v : Word) : (s.setPc v).p = s.p := rfl
@[simp] theorem State.setPc_mem (v : Word) : (s.setPc v).mem = s.mem := rfl
@[simp] theorem State.setPc_irq (v : Word) : (s.setPc v).irq = s.irq := rfl
@[simp] theorem State.setPc_nmi (v : Word) : (s.setPc v).nmi = s.nmi := rfl
@[simp] theorem State.setPc_call (v : Word) : (s.setPc v).call = s.call := rfl
@[simp] theorem State.setPc_lifetime (v : Word) : (s.setPc v).lifetime = s.lifetime := rfl
@[simp] theorem State.setPc_options (v : Word) : (s.setPc v).options = s.options := rfl
@[simp] theorem State.setPc_inCall (v : Word) : (s.setPc v).inCall = s.inCall := rfl
@[simp] theorem State.setPc_stopReasons (v : Word) : (s.setPc v).stopReasons = s.stopReasons := rfl
@[simp] theorem State.setPc_observers (v : Word) : (s.setPc v).observers = s.observers := rfl
@[simp] theorem State.setPc_events (v : Word) : (s.setPc v).events = s.events := rfl
@[simp] theorem State.setPc_hostQueue (v : Word) : (s.setPc v).hostQueue = s.hostQueue := rfl
@[simp] theorem State.setPc_hostBytes (v : Word) : (s.setPc v).hostBytes = s.hostBytes := rfl
@[simp] theorem State.setPc_replies (v : Word) : (s.setPc v).replies = s.replies := rfl
@[simp] theorem State.setPc_hookCalls (v : Word) : (s.setPc v).hookCalls = s.hookCalls := rfl
@[simp] theorem State.setPc_freeCount (v : Word) : (s.setPc v).freeCount = s.freeCount := rfl

@[simp] theorem State.setEvents_config (v : StepEvents) : (s.setEvents v).config = s.config := rfl
@[simp] theorem State.setEvents_pc (v : StepEvents) : (s.setEvents v).pc = s.pc := rfl
@[simp] theorem State.setEvents_sp (v : StepEvents) : (s.setEvents v).sp = s.sp := rfl
@[simp] theorem State.setEvents_a (v : StepEvents) : (s.setEvents v).a = s.a := rfl
@[simp] theorem State.setEvents_x (v : StepEvents) : (s.setEvents v).x = s.x := rfl
@[simp] theorem State.setEvents_y (v : StepEvents) : (s.setEvents v).y = s.y := rfl
@[simp] theorem State.setEvents_p (v : StepEvents) : (s.setEvents v).p = s.p := rfl
@[simp] theorem State.setEvents_mem (v : StepEvents) : (s.setEvents v).mem = s.mem := rfl
@[simp] theorem State.setEvents_irq (v : StepEvents) : (s.setEvents v).irq = s.irq := rfl
@[simp] theorem State.setEvents_nmi (v : StepEvents) : (s.setEvents v).nmi = s.nmi := rfl
@[simp] theorem State.setEvents_call (v : StepEvents) : (s.setEvents v).call = s.call := rfl
@[simp] theorem State.setEvents_lifetime (v : StepEvents) : (s.setEvents v).lifetime = s.lifetime := rfl
@[simp] theorem State.setEvents_options (v : StepEvents) : (s.setEvents v).options = s.options := rfl
@[simp] theorem State.setEvents_inCall (v : StepEvents) : (s.setEvents v).inCall = s.inCall := rfl
@[simp] theorem State.setEvents_stopReasons (v : StepEvents) : (s.setEvents v).stopReasons = s.stopReasons := rfl
@[simp] theorem State.setEvents_observers (v : StepEvents) : (s.setEvents v).observers = s.observers := rfl
@[simp] theorem State.setEvents_events (v : StepEvents) : (s.setEvents v).events = v := rfl
@[simp] theorem State.setEvents_hostQueue (v : StepEvents) : (s.setEvents v).hostQueue = s.hostQueue := rfl
@[simp] theorem State.setEvents_hostBytes (v : StepEvents) : (s.setEvents v).hostBytes = s.hostBytes := rfl
@[simp] theorem State.setEvents_replies (v : StepEvents) : (s.setEvents v).replies = s.replies := rfl
@[simp] theorem State.setEvents_hookCalls (v : StepEvents) : (s.setEvents v).hookCalls = s.hookCalls := rfl
@[simp] theorem State.setEvents_freeCount (v : StepEvents) : (s.setEvents v).freeCount = s.freeCount := rfl

@[simp] theorem State.setMem_config (v : Memory) : (s.setMem v).config = s.config := rfl
@[simp] theorem State.setMem_pc (v : Memory) : (s.setMem v).pc = s.pc := rfl
@[simp] theorem State.setMem_sp (v : Memory) : (s.setMem v).sp = s.sp := rfl
@[simp] theorem State.setMem_a (v : Memory) : (s.setMem v).a = s.a := rfl
@[simp] theorem State.setMem_x (v : Memory) : (s.setMem v).x = s.x := rfl
@[simp] theorem State.setMem_y (v : Memory) : (s.setMem v).y = s.y := rfl
@[simp] theorem State.setMem_p (v : Memory) : (s.setMem v).p = s.p := rfl
@[simp] theorem State.setMem_mem (v : Memory) : (s.setMem v).mem = v := rfl
@[simp] theorem State.setMem_irq (v : Memory) : (s.setMem v).irq = s.irq := rfl
@[simp] theorem State.setMem_nmi (v : Memory) : (s.setMem v).nmi = s.nmi := rfl
@[simp] theorem State.setMem_call (v : Memory) : (s.setMem v).call = s.call := rfl
@[simp] theorem State.setMem_lifetime (v : Memory) : (s.setMem v).lifetime = s.lifetime := rfl
@[simp] theorem State.setMem_options (v : Memory) : (s.setMem v).options = s.options := rfl
@[simp] theorem State.setMem_inCall (v : Memory) : (s.setMem v).inCall = s.inCall := rfl
@[simp] theorem State.setMem_stopReasons (v : Memory) : (s.setMem v).stopReasons = s.stopReasons := rfl
@[simp] theorem State.setMem_observers (v : Memory) : (s.setMem v).observers = s.observers := rfl
@[simp] theorem State.setMem_events (v : Memory) : (s.setMem v).events = s.events := rfl
@[simp] theorem State.setMem_hostQueue (v : Memory) : (s.setMem v).hostQueue = s.hostQueue := rfl
@[simp] theorem State.setMem_hostBytes (v : Memory) : (s.setMem v).hostBytes = s.hostBytes := rfl
@[simp] theorem State.setMem_replies (v : Memory) : (s.setMem v).replies = s.replies := rfl
@[simp] theorem State.setMem_hookCalls (v : Memory) : (s.setMem v).hookCalls = s.hookCalls := rfl
@[simp] theorem State.setMem_freeCount (v : Memory) : (s.setMem v).freeCount = s.freeCount := rfl

@[simp] theorem State.putFlag_config (f : Flag) (b : Bool) : (s.putFlag f b).config = s.config := rfl
@[simp] theorem State.putFlag_pc (f : Flag) (b : Bool) : (s.putFlag f b).pc = s.pc := rfl
@[simp] theorem State.putFlag_sp (f : Flag) (b : Bool) : (s.putFlag f b).sp = s.sp := rfl
@[simp] theorem State.putFlag_a (f : Flag) (b : Bool) : (s.putFlag f b).a = s.a := rfl
@[simp] theorem State.putFlag_x (f : Flag) (b : Bool) : (s.putFlag f b).x = s.x := rfl
@[simp] theorem State.putFlag_y (f : Flag) (b : Bool) : (s.putFlag f b).y = s.y := rfl
@[simp] theorem State.putFlag_p (f : Flag) (b : Bool) : (s.putFlag f b).p = Sys2Proof.Machine.putFlag f b s.p := rfl
@[simp] theorem State.putFlag_mem (f : Flag) (b : Bool) : (s.putFlag f b).mem = s.mem := rfl
@[simp] theorem State.putFlag_irq (f : Flag) (b : Bool) : (s.putFlag f b).irq = s.irq := rfl
@[simp] theorem State.putFlag_nmi (f : Flag) (b : Bool) : (s.putFlag f b).nmi = s.nmi := rfl
@[simp] theorem State.putFlag_call (f : Flag) (b : Bool) : (s.putFlag f b).call = s.call := rfl
@[simp] theorem State.putFlag_lifetime (f : Flag) (b : Bool) : (s.putFlag f b).lifetime = s.lifetime := rfl
@[simp] theorem State.putFlag_options (f : Flag) (b : Bool) : (s.putFlag f b).options = s.options := rfl
@[simp] theorem State.putFlag_inCall (f : Flag) (b : Bool) : (s.putFlag f b).inCall = s.inCall := rfl
@[simp] theorem State.putFlag_stopReasons (f : Flag) (b : Bool) : (s.putFlag f b).stopReasons = s.stopReasons := rfl
@[simp] theorem State.putFlag_observers (f : Flag) (b : Bool) : (s.putFlag f b).observers = s.observers := rfl
@[simp] theorem State.putFlag_events (f : Flag) (b : Bool) : (s.putFlag f b).events = s.events := rfl
@[simp] theorem State.putFlag_hostQueue (f : Flag) (b : Bool) : (s.putFlag f b).hostQueue = s.hostQueue := rfl
@[simp] theorem State.putFlag_hostBytes (f : Flag) (b : Bool) : (s.putFlag f b).hostBytes = s.hostBytes := rfl
@[simp] theorem State.putFlag_replies (f : Flag) (b : Bool) : (s.putFlag f b).replies = s.replies := rfl
@[simp] theorem State.putFlag_hookCalls (f : Flag) (b : Bool) : (s.putFlag f b).hookCalls = s.hookCalls := rfl
@[simp] theorem State.putFlag_freeCount (f : Flag) (b : Bool) : (s.putFlag f b).freeCount = s.freeCount := rfl

@[simp] theorem State.setZN_config (v : Byte) : (s.setZN v).config = s.config := rfl
@[simp] theorem State.setZN_pc (v : Byte) : (s.setZN v).pc = s.pc := rfl
@[simp] theorem State.setZN_sp (v : Byte) : (s.setZN v).sp = s.sp := rfl
@[simp] theorem State.setZN_a (v : Byte) : (s.setZN v).a = s.a := rfl
@[simp] theorem State.setZN_x (v : Byte) : (s.setZN v).x = s.x := rfl
@[simp] theorem State.setZN_y (v : Byte) : (s.setZN v).y = s.y := rfl
@[simp] theorem State.setZN_p (v : Byte) : (s.setZN v).p = withZN v s.p := rfl
@[simp] theorem State.setZN_mem (v : Byte) : (s.setZN v).mem = s.mem := rfl
@[simp] theorem State.setZN_irq (v : Byte) : (s.setZN v).irq = s.irq := rfl
@[simp] theorem State.setZN_nmi (v : Byte) : (s.setZN v).nmi = s.nmi := rfl
@[simp] theorem State.setZN_call (v : Byte) : (s.setZN v).call = s.call := rfl
@[simp] theorem State.setZN_lifetime (v : Byte) : (s.setZN v).lifetime = s.lifetime := rfl
@[simp] theorem State.setZN_options (v : Byte) : (s.setZN v).options = s.options := rfl
@[simp] theorem State.setZN_inCall (v : Byte) : (s.setZN v).inCall = s.inCall := rfl
@[simp] theorem State.setZN_stopReasons (v : Byte) : (s.setZN v).stopReasons = s.stopReasons := rfl
@[simp] theorem State.setZN_observers (v : Byte) : (s.setZN v).observers = s.observers := rfl
@[simp] theorem State.setZN_events (v : Byte) : (s.setZN v).events = s.events := rfl
@[simp] theorem State.setZN_hostQueue (v : Byte) : (s.setZN v).hostQueue = s.hostQueue := rfl
@[simp] theorem State.setZN_hostBytes (v : Byte) : (s.setZN v).hostBytes = s.hostBytes := rfl
@[simp] theorem State.setZN_replies (v : Byte) : (s.setZN v).replies = s.replies := rfl
@[simp] theorem State.setZN_hookCalls (v : Byte) : (s.setZN v).hookCalls = s.hookCalls := rfl
@[simp] theorem State.setZN_freeCount (v : Byte) : (s.setZN v).freeCount = s.freeCount := rfl

@[simp] theorem State.setMem_setMem (m n : Memory) : (s.setMem m).setMem n = s.setMem n := rfl

@[simp] theorem State.setMem_self : s.setMem s.mem = s := rfl

/-! ## Bits of P -/

/-- Flag positions are distinct bits of the byte. -/
theorem Flag.bit_lt (f : Flag) : f.bit < 8 := by cases f <;> decide

/-- A flag's mask has its bit and no other. -/
theorem Flag.mask_getLsbD (f g : Flag) : f.mask.getLsbD g.bit = decide (f = g) := by
  cases f <;> cases g <;> decide

/-- Reading a flag after writing one. -/
@[simp] theorem getFlag_putFlag (f g : Flag) (b : Bool) (p : Byte) :
    getFlag g (putFlag f b p) = if g = f then b else getFlag g p := by
  have hm := Flag.mask_getLsbD f g
  have hlt := Flag.bit_lt g
  by_cases h : g = f
  · subst h
    cases b <;> simp_all [getFlag, putFlag]
  · have h' : f ≠ g := fun e => h e.symm
    cases b <;> simp_all [getFlag, putFlag]

/-- Reading a flag after SetZN. -/
@[simp] theorem getFlag_withZN (g : Flag) (v p : Byte) :
    getFlag g (withZN v p) =
      if g = .n then v.msb else if g = .z then v == 0x00#8 else getFlag g p := by
  simp [withZN]

/-- Two status bytes with the same eight flags are equal. -/
theorem status_ext {p q : Byte} (h : ∀ f : Flag, getFlag f p = getFlag f q) : p = q := by
  apply BitVec.eq_of_getLsbD_eq
  intro i hi
  have : ∃ f : Flag, f.bit = i := by
    have : i = 0 ∨ i = 1 ∨ i = 2 ∨ i = 3 ∨ i = 4 ∨ i = 5 ∨ i = 6 ∨ i = 7 := by omega
    rcases this with h | h | h | h | h | h | h | h <;> subst h
    · exact ⟨.c, rfl⟩
    · exact ⟨.z, rfl⟩
    · exact ⟨.i, rfl⟩
    · exact ⟨.d, rfl⟩
    · exact ⟨.b, rfl⟩
    · exact ⟨.u, rfl⟩
    · exact ⟨.v, rfl⟩
    · exact ⟨.n, rfl⟩
  obtain ⟨f, rfl⟩ := this
  exact h f

end Sys2Proof.Machine
end

