-- ==== Sys2Proof/Laws/Memory.lean ====
section
/-!
SUPPORT. The backing bytes: read after write, the canonical form (Memory.wf) and that it determines
the list; what a store changes of the view of an address.
-/

namespace Sys2Proof.Machine

/-! ## Lists of cells -/

/-- Below its first index a canonical list reads blank. -/
theorem cellGet_below : ∀ {low : Nat} {cells : List Host.Cell} {i : Nat},
    cellsFrom low cells = true → i < low → cellGet cells i = Memory.blank
  | _, [], _, _, _ => rfl
  | low, (k, v) :: rest, i, h, hi => by
    simp only [cellsFrom, Bool.and_eq_true, decide_eq_true_eq] at h
    obtain ⟨⟨hk, -⟩, hrest⟩ := h
    have hne : (k == i) = false := by simp; omega
    simp only [cellGet, hne]
    exact cellGet_below hrest (by omega)

/-- A canonical list from `low` is one from any lower bound. -/
theorem cellsFrom_mono : ∀ {low low' : Nat} {cells : List Host.Cell},
    cellsFrom low cells = true → low' ≤ low → cellsFrom low' cells = true
  | _, _, [], _, _ => rfl
  | low, low', (k, v) :: rest, h, hl => by
    simp only [cellsFrom, Bool.and_eq_true, decide_eq_true_eq] at h ⊢
    exact ⟨⟨by omega, h.1.2⟩, h.2⟩

/-- Read after write. -/
theorem cellGet_cellSet : ∀ {low : Nat} {cells : List Host.Cell} (i j : Nat) (v : Byte),
    cellsFrom low cells = true → cellGet (cellSet cells i v) j = if j = i then v else cellGet cells j
  | low, [], i, j, v, _ => by
    by_cases hj : j = i
    · subst hj
      by_cases hv : v = Memory.blank <;> simp [cellSet, cellGet, hv]
    · have : (i == j) = false := by simp; omega
      by_cases hv : v = Memory.blank <;> simp [cellSet, cellGet, hv, hj, this]
  | low, (k, w) :: rest, i, j, v, h => by
    simp only [cellsFrom, Bool.and_eq_true, decide_eq_true_eq] at h
    obtain ⟨⟨hk, hw⟩, hrest⟩ := h
    have ih := cellGet_cellSet i j v hrest
    have below : ∀ n, n ≤ k → cellGet rest n = Memory.blank := fun n hn =>
      cellGet_below hrest (by omega)
    by_cases h1 : i < k
    · by_cases hv : v = Memory.blank
      · by_cases hj : j = i
        · subst hj
          have : (k == j) = false := by simp; omega
          simp [cellSet, cellGet, h1, hv, this, below j (by omega)]
        · simp [cellSet, h1, hv, hj]
      · by_cases hj : j = i
        · subst hj
          simp [cellSet, cellGet, h1, hv]
        · have : (i == j) = false := by simp; omega
          simp [cellSet, cellGet, h1, hv, hj, this]
    · by_cases h2 : i = k
      · subst h2
        by_cases hv : v = Memory.blank
        · by_cases hj : j = i
          · subst hj
            simp [cellSet, hv, below j (by omega)]
          · have : (i == j) = false := by simp; omega
            simp [cellSet, cellGet, hv, hj, this]
        · by_cases hj : j = i
          · subst hj
            simp [cellSet, cellGet, hv]
          · have : (i == j) = false := by simp; omega
            simp [cellSet, cellGet, hv, hj, this]
      · by_cases hj : j = i
        · subst hj
          have hkj : ¬ k = j := fun e => h2 e.symm
          simp [cellSet, cellGet, h1, h2, hkj, ih]
        · by_cases hkj : k = j
          · subst hkj
            simp [cellSet, cellGet, h1, h2, hj]
          · simp [cellSet, cellGet, h1, h2, hkj, ih, hj]

/-- Writing keeps the canonical form. -/
theorem cellsFrom_cellSet : ∀ {low : Nat} {cells : List Host.Cell} (i : Nat) (v : Byte),
    cellsFrom low cells = true → low ≤ i → cellsFrom low (cellSet cells i v) = true
  | low, [], i, v, _, hi => by
    by_cases hv : v = Memory.blank <;> simp [cellSet, cellsFrom, hv, hi]
  | low, (k, w) :: rest, i, v, h, hi => by
    simp only [cellsFrom, Bool.and_eq_true, decide_eq_true_eq] at h
    obtain ⟨⟨hk, hw⟩, hrest⟩ := h
    by_cases h1 : i < k
    · by_cases hv : v = Memory.blank
      · simp [cellSet, cellsFrom, h1, hv, hk, hrest]
        simpa using hw
      · have hik : i + 1 ≤ k := h1
        simp [cellSet, cellsFrom, h1, hv, hi, hrest, hik]
        simpa using hw
    · by_cases h2 : i = k
      · subst h2
        by_cases hv : v = Memory.blank
        · simp [cellSet, hv]
          exact cellsFrom_mono hrest (by omega)
        · simp [cellSet, cellsFrom, hv, hi, hrest]
      · have ih := cellsFrom_cellSet (cells := rest) (low := k + 1) i v hrest (by omega)
        simp [cellSet, cellsFrom, h1, h2, hk, ih]
        simpa using hw

/-- Two canonical lists that read alike everywhere are the same list. -/
theorem cells_ext : ∀ {low : Nat} {xs ys : List Host.Cell}, cellsFrom low xs = true →
    cellsFrom low ys = true → (∀ i, cellGet xs i = cellGet ys i) → xs = ys
  | _, [], [], _, _, _ => rfl
  | low, [], (k, v) :: ys, _, hy, h => by
    simp only [cellsFrom, Bool.and_eq_true, decide_eq_true_eq] at hy
    have := h k
    simp [cellGet] at this
    simp [← this] at hy
  | low, (k, v) :: xs, [], hx, _, h => by
    simp only [cellsFrom, Bool.and_eq_true, decide_eq_true_eq] at hx
    have := h k
    simp [cellGet] at this
    simp [this] at hx
  | low, (k, v) :: xs, (k', v') :: ys, hx, hy, h => by
    simp only [cellsFrom, Bool.and_eq_true, decide_eq_true_eq, bne_iff_ne, ne_eq] at hx hy
    obtain ⟨⟨hk, hv⟩, hxs⟩ := hx
    obtain ⟨⟨hk', hv'⟩, hys⟩ := hy
    have hkk : k = k' := by
      rcases Nat.lt_trichotomy k k' with hlt | heq | hgt
      · have e := h k
        have hne : (k' == k) = false := by simp; omega
        simp only [cellGet, beq_self_eq_true, if_true, hne] at e
        exact absurd (e.trans (cellGet_below hys (by omega))) hv
      · exact heq
      · have e := h k'
        have hne : (k == k') = false := by simp; omega
        simp only [cellGet, beq_self_eq_true, if_true, hne] at e
        exact absurd (e.symm.trans (cellGet_below hxs (by omega))) hv'
    subst hkk
    have hvv : v = v' := by simpa [cellGet] using h k
    subst hvv
    have hrest : xs = ys := cells_ext hxs hys fun i => by
      by_cases hi : i = k
      · subst hi
        rw [cellGet_below hxs (by omega), cellGet_below hys (by omega)]
      · have hne : (k == i) = false := by simp; omega
        simpa [cellGet, hne] using h i
    rw [hrest]

/-! ## Stores -/

/-- Read after write of a backing byte. -/
theorem Memory.byteAt_store {m : Memory} (h : m.wf = true) (k j : Nat) (v : Byte) :
    (m.store k v).byteAt j = if j = k then v else m.byteAt j :=
  cellGet_cellSet k j v h

/-- A store keeps the canonical form. -/
theorem Memory.wf_store {m : Memory} (h : m.wf = true) (k : Nat) (v : Byte) :
    (m.store k v).wf = true :=
  cellsFrom_cellSet k v h (Nat.zero_le k)

/-- The memory after reset is canonical. -/
theorem reset_memory_wf : State.reset.mem.wf = true := rfl

@[simp] theorem Memory.store_maps (m : Memory) (k : Nat) (v : Byte) : (m.store k v).maps = m.maps := rfl
@[simp] theorem Memory.store_cfg (m : Memory) (k : Nat) (v : Byte) : (m.store k v).cfg = m.cfg := rfl
@[simp] theorem Memory.store_segments (m : Memory) (k : Nat) (v : Byte) :
    (m.store k v).segments = m.segments := rfl

/-- What an address stands for does not depend on the backing bytes. -/
theorem Memory.readSlot_congr {m n : Memory} (hm : m.maps = n.maps) (hs : m.segments = n.segments)
    (hc : m.cfg = n.cfg) (a : Nat) : m.readSlot a = n.readSlot a := by
  obtain ⟨c, mp, sg, cf⟩ := m
  obtain ⟨c', mp', sg', cf'⟩ := n
  simp only at hm hs hc
  subst hm hs hc
  simp only [Memory.readSlot]
  split
  · rfl
  · congr 1

/-- The same for the write-hook. -/
theorem Memory.writeSlot_congr {m n : Memory} (hm : m.maps = n.maps)
    (hs : m.segments = n.segments) (hc : m.cfg = n.cfg) (a : Nat) :
    m.writeSlot a = n.writeSlot a := by
  obtain ⟨c, mp, sg, cf⟩ := m
  obtain ⟨c', mp', sg', cf'⟩ := n
  simp only at hm hs hc
  subst hm hs hc
  simp only [Memory.writeSlot]
  split
  · rfl
  · congr 1

@[simp] theorem Memory.readSlot_store (m : Memory) (k a : Nat) (v : Byte) :
    (m.store k v).readSlot a = m.readSlot a :=
  Memory.readSlot_congr rfl rfl rfl a

@[simp] theorem Memory.writeSlot_store (m : Memory) (k a : Nat) (v : Byte) :
    (m.store k v).writeSlot a = m.writeSlot a :=
  Memory.writeSlot_congr rfl rfl rfl a

/-! ## The view of an address, over states -/

/-- The slot of an address depends on the memory and MEM_SIZE only. -/
theorem State.readSlot_congr {s t : State} (hm : t.mem.maps = s.mem.maps)
    (hs : t.mem.segments = s.mem.segments) (hc : t.mem.cfg = s.mem.cfg) (hg : t.config = s.config)
    (a : Word) : t.readSlot a = s.readSlot a := by
  simp only [State.readSlot, hg, Memory.readSlot_congr hm hs hc]

/-- The same for the write-hook. -/
theorem State.writeSlot_congr {s t : State} (hm : t.mem.maps = s.mem.maps)
    (hs : t.mem.segments = s.mem.segments) (hc : t.mem.cfg = s.mem.cfg) (hg : t.config = s.config)
    (a : Word) : t.writeSlot a = s.writeSlot a := by
  simp only [State.writeSlot, hg, Memory.writeSlot_congr hm hs hc]

/-- A store moves no mapping. -/
@[simp] theorem State.readSlot_setMem_store (s : State) (m : Memory) (k : Nat) (v : Byte) (a : Word) :
    (s.setMem (m.store k v)).readSlot a = (s.setMem m).readSlot a :=
  State.readSlot_congr (s := s.setMem m) (t := s.setMem (m.store k v)) rfl rfl rfl rfl a

@[simp] theorem State.writeSlot_setMem_store (s : State) (m : Memory) (k : Nat) (v : Byte) (a : Word) :
    (s.setMem (m.store k v)).writeSlot a = (s.setMem m).writeSlot a :=
  State.writeSlot_congr (s := s.setMem m) (t := s.setMem (m.store k v)) rfl rfl rfl rfl a

/-- What an address reads as depends on the memory and MEM_SIZE only. -/
theorem State.peek_congr {s t : State} (hm : t.mem = s.mem) (hc : t.config = s.config) (a : Word) :
    t.peek a = s.peek a := by
  simp only [State.peek, State.readSlot, hm, hc]

/-- An address that reads from a backing byte reads that byte. -/
theorem State.peek_of_readSlot {s : State} {a : Word} {k : Nat} (h : s.readSlot a = some (.byte k)) :
    s.peek a = some (s.mem.byteAt k) := by
  simp [State.peek, h]

/-- An address that can be peeked reads from a backing byte. -/
theorem State.readSlot_of_peek {s : State} {a : Word} {v : Byte} (h : s.peek a = some v) :
    ∃ k, s.readSlot a = some (.byte k) ∧ s.mem.byteAt k = v := by
  unfold State.peek at h
  split at h
  · exact ⟨_, ‹_›, by simpa using h⟩
  · cases h

/-- A store to backing byte `k` leaves every address that does not read from `k` as it was. -/
theorem State.peek_store {s : State} (hwf : s.mem.wf = true) (k : Nat) (v : Byte) (b : Word)
    (hb : s.readSlot b ≠ some (.byte k)) :
    (s.setMem (s.mem.store k v)).peek b = s.peek b := by
  have hslot : (s.setMem (s.mem.store k v)).readSlot b = s.readSlot b := by simp
  unfold State.peek
  rw [hslot]
  split
  · rename_i j hj
    have : j ≠ k := fun e => hb (by rw [hj, e])
    simp [Memory.byteAt_store hwf, this]
  · rfl

/-! Register updates leave the view of memory. -/

@[simp] theorem State.readSlot_setA (s : State) (v : Byte) (a : Word) :
    (s.setA v).readSlot a = s.readSlot a := rfl
@[simp] theorem State.writeSlot_setA (s : State) (v : Byte) (a : Word) :
    (s.setA v).writeSlot a = s.writeSlot a := rfl
@[simp] theorem State.peek_setA (s : State) (v : Byte) (a : Word) :
    (s.setA v).peek a = s.peek a := rfl
@[simp] theorem State.readSlot_setX (s : State) (v : Byte) (a : Word) :
    (s.setX v).readSlot a = s.readSlot a := rfl
@[simp] theorem State.writeSlot_setX (s : State) (v : Byte) (a : Word) :
    (s.setX v).writeSlot a = s.writeSlot a := rfl
@[simp] theorem State.peek_setX (s : State) (v : Byte) (a : Word) :
    (s.setX v).peek a = s.peek a := rfl
@[simp] theorem State.readSlot_setY (s : State) (v : Byte) (a : Word) :
    (s.setY v).readSlot a = s.readSlot a := rfl
@[simp] theorem State.writeSlot_setY (s : State) (v : Byte) (a : Word) :
    (s.setY v).writeSlot a = s.writeSlot a := rfl
@[simp] theorem State.peek_setY (s : State) (v : Byte) (a : Word) :
    (s.setY v).peek a = s.peek a := rfl
@[simp] theorem State.readSlot_setSp (s : State) (v : Byte) (a : Word) :
    (s.setSp v).readSlot a = s.readSlot a := rfl
@[simp] theorem State.writeSlot_setSp (s : State) (v : Byte) (a : Word) :
    (s.setSp v).writeSlot a = s.writeSlot a := rfl
@[simp] theorem State.peek_setSp (s : State) (v : Byte) (a : Word) :
    (s.setSp v).peek a = s.peek a := rfl
@[simp] theorem State.readSlot_setP (s : State) (v : Byte) (a : Word) :
    (s.setP v).readSlot a = s.readSlot a := rfl
@[simp] theorem State.writeSlot_setP (s : State) (v : Byte) (a : Word) :
    (s.setP v).writeSlot a = s.writeSlot a := rfl
@[simp] theorem State.peek_setP (s : State) (v : Byte) (a : Word) :
    (s.setP v).peek a = s.peek a := rfl
@[simp] theorem State.readSlot_setPc (s : State) (v : Word) (a : Word) :
    (s.setPc v).readSlot a = s.readSlot a := rfl
@[simp] theorem State.writeSlot_setPc (s : State) (v : Word) (a : Word) :
    (s.setPc v).writeSlot a = s.writeSlot a := rfl
@[simp] theorem State.peek_setPc (s : State) (v : Word) (a : Word) :
    (s.setPc v).peek a = s.peek a := rfl
@[simp] theorem State.readSlot_setEvents (s : State) (v : StepEvents) (a : Word) :
    (s.setEvents v).readSlot a = s.readSlot a := rfl
@[simp] theorem State.writeSlot_setEvents (s : State) (v : StepEvents) (a : Word) :
    (s.setEvents v).writeSlot a = s.writeSlot a := rfl
@[simp] theorem State.peek_setEvents (s : State) (v : StepEvents) (a : Word) :
    (s.setEvents v).peek a = s.peek a := rfl
@[simp] theorem State.readSlot_putFlag (s : State) (f : Flag) (b : Bool) (a : Word) :
    (s.putFlag f b).readSlot a = s.readSlot a := rfl
@[simp] theorem State.readSlot_setZN (s : State) (v : Byte) (a : Word) :
    (s.setZN v).readSlot a = s.readSlot a := rfl
@[simp] theorem State.writeSlot_putFlag (s : State) (f : Flag) (b : Bool) (a : Word) :
    (s.putFlag f b).writeSlot a = s.writeSlot a := rfl
@[simp] theorem State.writeSlot_setZN (s : State) (v : Byte) (a : Word) :
    (s.setZN v).writeSlot a = s.writeSlot a := rfl
@[simp] theorem State.peek_putFlag (s : State) (f : Flag) (b : Bool) (a : Word) :
    (s.putFlag f b).peek a = s.peek a := rfl
@[simp] theorem State.peek_setZN (s : State) (v : Byte) (a : Word) :
    (s.setZN v).peek a = s.peek a := rfl

end Sys2Proof.Machine
end

