-- ==== Sys2Proof/Laws/Op.lean ====
section
/-!
SUPPORT. How operations compose: what a sequence answers, what it keeps when each part keeps it, and
when it commutes with a change of state.
-/

namespace Sys2Proof.Machine

variable {α β : Type}

@[simp] theorem Op.pure_apply (a : α) (s : State) : (pure a : Op α) s = .ok (a, s) := rfl

@[simp] theorem Op.get_apply (s : State) : (get : Op State) s = .ok (s, s) := rfl

@[simp] theorem Op.modify_apply (f : State → State) (s : State) :
    (modify f : Op Unit) s = .ok ((), f s) := rfl

@[simp] theorem Op.raise_apply (f : State → Fault) (s : State) :
    (raise f : Op α) s = .error (f s) := rfl

@[simp] theorem modifyMem_apply (f : Memory → Memory) (s : State) :
    modifyMem f s = .ok ((), s.setMem (f s.mem)) := rfl

/-- A sequence whose first part answers. -/
theorem Op.bind_of_ok {x : Op α} {f : α → Op β} {s t : State} {a : α} (h : x s = .ok (a, t)) :
    (x >>= f) s = f a t := by
  simp [bind, StateT.bind, Except.bind, h]

/-- A sequence whose first part faults. -/
theorem Op.bind_of_error {x : Op α} {f : α → Op β} {s : State} {e : Fault} (h : x s = .error e) :
    (x >>= f) s = .error e := by
  simp [bind, StateT.bind, Except.bind, h]

/-- What a sequence answers: each part answers in turn. -/
theorem Op.bind_ok_iff {x : Op α} {f : α → Op β} {s : State} {r : β × State} :
    (x >>= f) s = .ok r ↔ ∃ a t, x s = .ok (a, t) ∧ f a t = .ok r := by
  cases h : x s with
  | error e => simp [Op.bind_of_error h]
  | ok p =>
    obtain ⟨a, t⟩ := p
    simp [Op.bind_of_ok h]

@[simp] theorem Op.pure_bind (a : α) (f : α → Op β) (s : State) :
    ((pure a : Op α) >>= f) s = f a s := rfl

@[simp] theorem Op.get_bind (f : State → Op β) (s : State) : ((get : Op State) >>= f) s = f s s := rfl

@[simp] theorem Op.modify_bind (g : State → State) (f : Unit → Op β) (s : State) :
    ((modify g : Op Unit) >>= f) s = f () (g s) := rfl

/-- A whole operation answers a next state exactly when it answers. -/
@[simp] theorem complete_eq_next {op : Op Unit} {s t : State} :
    complete op s = .next t ↔ op s = .ok ((), t) := by
  unfold complete
  split <;> simp_all

theorem complete_of_ok {op : Op Unit} {s t : State} (h : op s = .ok ((), t)) :
    complete op s = .next t := complete_eq_next.2 h

/-! ## What an operation keeps -/

/-- Every answer of the operation stands in relation `R` to the state it started from. -/
def Op.Keeps (R : State → State → Prop) (x : Op α) : Prop :=
  ∀ s a t, x s = .ok (a, t) → R s t

/-- A relation that a sequence inherits from its parts. -/
structure Composable (R : State → State → Prop) : Prop where
  refl : ∀ s, R s s
  trans : ∀ s t u, R s t → R t u → R s u

theorem Op.Keeps.pure {R : State → State → Prop} (hR : Composable R) (a : α) :
    Op.Keeps R (pure a : Op α) := by
  intro s b t h
  simp at h
  exact h.2 ▸ hR.refl s

theorem Op.Keeps.get {R : State → State → Prop} (hR : Composable R) :
    Op.Keeps R (get : Op State) := by
  intro s b t h
  simp at h
  exact h.2 ▸ hR.refl s

theorem Op.Keeps.raise {R : State → State → Prop} (f : State → Fault) :
    Op.Keeps R (raise f : Op α) := by
  intro s b t h
  simp at h

theorem Op.Keeps.modify {R : State → State → Prop} {f : State → State} (h : ∀ s, R s (f s)) :
    Op.Keeps R (modify f : Op Unit) := by
  intro s b t e
  simp at e
  exact e ▸ h s

theorem Op.Keeps.modifyMem {R : State → State → Prop} {f : Memory → Memory}
    (h : ∀ s : State, R s (s.setMem (f s.mem))) : Op.Keeps R (modifyMem f) := by
  intro s b t e
  simp at e
  exact e ▸ h s

theorem Op.Keeps.bind {R : State → State → Prop} (hR : Composable R) {x : Op α} {f : α → Op β}
    (hx : Op.Keeps R x) (hf : ∀ a, Op.Keeps R (f a)) : Op.Keeps R (x >>= f) := by
  intro s b u h
  obtain ⟨a, t, h1, h2⟩ := Op.bind_ok_iff.1 h
  exact hR.trans _ _ _ (hx s a t h1) (hf a t b u h2)

/-! ## Commuting with a change of state -/

/-- An answer with its state changed, or the state its fault leaves. -/
def mapAnswer (g : State → State) : Except Fault (α × State) → Except Fault (α × State)
  | .ok (a, t) => .ok (a, g t)
  | .error f => .error (f.mapState g)

/-- The change of state shows in a whole operation's result alike. -/
theorem complete_map {op : Op Unit} {g : State → State} {s t : State}
    (h : op t = mapAnswer g (op s)) : complete op t = mapResult g (complete op s) := by
  unfold complete
  rw [h]
  cases op s <;> rfl

/-- Running the operation from the changed state gives the same answer, changed alike. -/
def Op.Commutes (g : State → State) (x : Op α) : Prop := ∀ s, x (g s) = mapAnswer g (x s)

theorem Op.Commutes.pure (g : State → State) (a : α) : Op.Commutes g (pure a : Op α) :=
  fun _ => rfl

theorem Op.Commutes.raise {g : State → State} {f : State → Fault}
    (h : ∀ s, f (g s) = (f s).mapState g) : Op.Commutes g (raise f : Op α) :=
  fun s => congrArg Except.error (h s)

theorem Op.Commutes.modify {g f : State → State} (h : ∀ s, f (g s) = g (f s)) :
    Op.Commutes g (modify f : Op Unit) := by
  intro s
  simp [mapAnswer, h]

theorem Op.Commutes.bind {g : State → State} {x : Op α} {f : α → Op β}
    (hx : Op.Commutes g x) (hf : ∀ a, Op.Commutes g (f a)) : Op.Commutes g (x >>= f) := by
  intro s
  cases h : x s with
  | error e =>
    have hg : x (g s) = .error (e.mapState g) := by rw [hx s, h]; rfl
    rw [Op.bind_of_error h, Op.bind_of_error hg]; rfl
  | ok p =>
    obtain ⟨a, t⟩ := p
    have hg : x (g s) = .ok (a, g t) := by rw [hx s, h]; rfl
    rw [Op.bind_of_ok h, Op.bind_of_ok hg]
    exact hf a t

/-- An operation that reads the state and goes on with what it read. -/
theorem Op.Commutes.get_bind {g : State → State} {f : State → Op β}
    (h : ∀ s, f (g s) (g s) = mapAnswer g (f s s)) :
    Op.Commutes g ((get : Op State) >>= f) := by
  intro s
  simpa using h s

end Sys2Proof.Machine
end

