-- ==== Sys2Proof/Laws/Access.lean ====
section
/-!
SUPPORT. Everything the shared operations of Machine/Hooks.lean and Machine/Ops.lean can do, once:
what hooks change (60_exceptions.md R343), reads and writes of backing bytes (20_memory.md R52, R53),
the stack primitives on RAM (40_step_addressing_flags.md R150 to R153), and that every operation
keeps the canonical form of memory.
-/

namespace Sys2Proof.Machine

/-! ## What hooks keep -/

/-- What every host action and every hook keeps: storing a byte, changing mappings, the registry, and
the model's record of calls, replies and bytes read. -/
structure HookKeeper (R : State → State → Prop) : Prop where
  composable : Composable R
  store : ∀ (s : State) (k : Nat) (v : Byte), R s (s.setMem (s.mem.store k v))
  maps : ∀ (s : State) (m : Memory), m.cells = s.mem.cells → R s (s.setMem m)
  registry : ∀ (s : State) (irq : List IrqSource) (nmi : List String), R s (s.withRegistry irq nmi)
  script : ∀ (s : State) (bytes : List Byte) (replies : List HookReply) (calls : List HookCall) (n : Nat),
    R s { s with hostBytes := bytes, replies := replies, hookCalls := calls, freeCount := n }

section
variable {R : State → State → Prop}

/-- The check of a configuration index changes nothing. -/
theorem checkConfiguration_keeps (hR : Composable R) (index : Nat) :
    Op.Keeps R (checkConfiguration index) :=
  Op.Keeps.bind hR (Op.Keeps.get hR) fun s => by
    split
    · exact Op.Keeps.pure hR _
    · exact Op.Keeps.raise _

/-- Nor does finding the target configuration. -/
theorem targetConfiguration_keeps (hR : Composable R) (config : Option Nat) :
    Op.Keeps R (targetConfiguration config) := by
  cases config with
  | none => exact Op.Keeps.bind hR (Op.Keeps.get hR) fun _ => Op.Keeps.pure hR _
  | some i =>
    exact Op.Keeps.bind hR (checkConfiguration_keeps hR i) fun _ => Op.Keeps.pure hR _

/-- A mapping operation changes memory only. -/
theorem installRange_keeps (hR : Composable R)
    (h : ∀ (s : State) (r : Mapping), R s (s.setMem (s.mem.install r)))
    (config : Option Nat) (base length : Nat) (rd wr : Option Backing) :
    Op.Keeps R (installRange config base length rd wr) := by
  refine Op.Keeps.bind hR (targetConfiguration_keeps hR config) fun c =>
    Op.Keeps.bind hR (Op.Keeps.get hR) fun s => ?_
  split
  · exact Op.Keeps.modifyMem fun s => h s _
  · exact Op.Keeps.raise _

/-- What a write keeps, if a store keeps it and the device hook does. -/
theorem writeWith_keeps (hR : Composable R)
    (h : ∀ (s : State) (k : Nat) (v : Byte), R s (s.setMem (s.mem.store k v)))
    {device : Nat → Op Unit} (hd : ∀ port, Op.Keeps R (device port)) (a : Word) (v : Byte) :
    Op.Keeps R (writeWith device a v) := by
  refine Op.Keeps.bind hR (Op.Keeps.get hR) fun s => ?_
  split
  · exact Op.Keeps.modifyMem fun s => h s _ _
  · exact hd _
  · split
    · exact Op.Keeps.pure hR _
    · exact Op.Keeps.raise _

/-- What a read keeps, if the device hook does. -/
theorem readWith_keeps (hR : Composable R) {device : Nat → Op Byte}
    (hd : ∀ port, Op.Keeps R (device port)) (a : Word) : Op.Keeps R (readWith device a) := by
  refine Op.Keeps.bind hR (Op.Keeps.get hR) fun s => ?_
  split
  · exact Op.Keeps.pure hR _
  · exact hd _
  · exact Op.Keeps.raise _

/-- Taking a free byte counts it. -/
theorem takeFreeByte_keeps (h : ∀ (s : State) (n : Nat), R s { s with freeCount := n }) :
    Op.Keeps R takeFreeByte := by
  intro s b t e
  simp only [takeFreeByte, Except.ok.injEq, Prod.mk.injEq] at e
  exact e.2 ▸ h s _

/-- Every host action. -/
theorem HookKeeper.action (k : HookKeeper R) (act : HostAction) : Op.Keeps R (applyAction act) := by
  have hR := k.composable
  have hin := installRange_keeps hR fun s r => k.maps s (s.mem.install r) rfl
  cases act with
  | mapRam config base backing offset length =>
    simp only [applyAction, mapRam]
    split
    · exact hin _ _ _ _ _
    · exact Op.Keeps.raise _
  | mapRom config base backing => exact hin _ _ _ _ _
  | mapRegister config address cell mode => exact hin _ _ _ _ _
  | mapDevice config base length port mode => exact hin _ _ _ _ _
  | mapSegment config name origin size banks =>
    refine Op.Keeps.bind hR (targetConfiguration_keeps hR config) fun c =>
      Op.Keeps.bind hR (Op.Keeps.get hR) fun s => ?_
    split
    · exact Op.Keeps.raise _
    · split
      · exact Op.Keeps.modifyMem fun s => k.maps s _ rfl
      · exact Op.Keeps.raise _
  | selectBank id bank =>
    refine Op.Keeps.bind hR (Op.Keeps.get hR) fun s => ?_
    split
    · exact Op.Keeps.raise _
    · split
      · exact Op.Keeps.modifyMem fun s => k.maps s _ rfl
      · exact Op.Keeps.raise _
  | setConfiguration index =>
    exact Op.Keeps.bind hR (checkConfiguration_keeps hR index) fun _ =>
      Op.Keeps.modifyMem fun s => k.maps s _ rfl
  | setByte index value =>
    exact Op.Keeps.modifyMem (f := fun m => m.store index value) fun s => k.store s _ _
  | memRead a =>
    exact Op.Keeps.bind hR
      (readWith_keeps hR (fun _ => Op.Keeps.bind hR
        (Op.Keeps.modify fun s => k.script s s.hostBytes s.replies _ s.freeCount)
        fun _ => takeFreeByte_keeps fun s n => k.script s s.hostBytes s.replies s.hookCalls n) a)
      fun b => Op.Keeps.modify fun s => k.script s [b] s.replies s.hookCalls s.freeCount
  | memWrite a v =>
    exact writeWith_keeps hR k.store
      (fun port => Op.Keeps.modify fun s =>
        k.script s s.hostBytes s.replies (.write port a v :: s.hookCalls) s.freeCount) a v
  | addIrqSource name autoAck => exact Op.Keeps.modify fun s => k.registry s (addIrq s.irq name autoAck) s.nmi
  | removeIrqSource name => exact Op.Keeps.modify fun s => k.registry s (removeIrq s.irq name) s.nmi
  | addNmiSource name => exact Op.Keeps.modify fun s => k.registry s s.irq (addNmi s.nmi name)
  | removeNmiSource name => exact Op.Keeps.modify fun s => k.registry s s.irq (removeNmi s.nmi name)

/-- A hook keeps what every host action and the record of calls and replies keep. -/
theorem invokeHook_keeps (hR : Composable R)
    (script : ∀ (s : State) (bytes : List Byte) (replies : List HookReply) (calls : List HookCall) (n : Nat),
      R s { s with hostBytes := bytes, replies := replies, hookCalls := calls, freeCount := n })
    (hact : ∀ act, Op.Keeps R (applyAction act)) (call : HookCall) : Op.Keeps R (invokeHook call) := by
  have hacts : ∀ acts, Op.Keeps R (applyActions acts) := by
    intro acts
    induction acts with
    | nil => exact Op.Keeps.pure hR _
    | cons act rest ih => exact Op.Keeps.bind hR (hact act) fun _ => ih
  have htake : Op.Keeps R (takeReply call) := by
    intro s a t h
    unfold takeReply at h
    split at h
    · simp only [Except.ok.injEq, Prod.mk.injEq] at h
      rw [← h.2]
      exact script s s.hostBytes _ s.hookCalls s.freeCount
    · exact Op.Keeps.bind hR (takeFreeByte_keeps fun s n => script s s.hostBytes s.replies s.hookCalls n)
        (fun _ => Op.Keeps.pure hR _) s a t h
  refine Op.Keeps.bind hR (Op.Keeps.modify fun s => script s s.hostBytes s.replies _ s.freeCount) fun _ =>
    Op.Keeps.bind hR htake fun answer => Op.Keeps.bind hR (hacts _) fun _ => Op.Keeps.pure hR _

/-- A hook. -/
theorem HookKeeper.hook (k : HookKeeper R) (call : HookCall) : Op.Keeps R (invokeHook call) :=
  invokeHook_keeps k.composable k.script k.action call

/-- Observers keep what one hook keeps. -/
theorem fireObservers_keeps (hR : Composable R) (h : ∀ call, Op.Keeps R (invokeHook call))
    (call : HookCall) : ∀ n, Op.Keeps R (fireObservers call n)
  | 0 => Op.Keeps.pure hR _
  | n + 1 => Op.Keeps.bind hR (h call) fun _ => fireObservers_keeps hR h call n

/-- A read keeps what a hook keeps. -/
theorem memRead_keeps (hR : Composable R) (h : ∀ call, Op.Keeps R (invokeHook call)) (a : Word) :
    Op.Keeps R (memRead a) :=
  readWith_keeps hR (fun port => h (.read port a)) a

/-- A write keeps what a store and a hook keep. -/
theorem memWrite_keeps (hR : Composable R) (h : ∀ call, Op.Keeps R (invokeHook call))
    (hs : ∀ (s : State) (k : Nat) (v : Byte), R s (s.setMem (s.mem.store k v)))
    (a : Word) (v : Byte) : Op.Keeps R (memWrite a v) :=
  writeWith_keeps hR hs (fun port => Op.Keeps.bind hR (h (.write port a v)) fun _ => Op.Keeps.pure hR _) a v

/-- Reads and writes. -/
theorem HookKeeper.read (k : HookKeeper R) (a : Word) : Op.Keeps R (memRead a) :=
  memRead_keeps k.composable k.hook a

theorem HookKeeper.write (k : HookKeeper R) (a : Word) (v : Byte) : Op.Keeps R (memWrite a v) :=
  memWrite_keeps k.composable k.hook k.store a v

end

theorem SameButHooks.composable : Composable SameButHooks where
  refl _ := rfl
  trans s t u h1 h2 := by
    unfold SameButHooks at *
    rw [h2, h1]

/-- R343: what hooks change. -/
theorem SameButHooks.keeper : HookKeeper SameButHooks :=
  ⟨SameButHooks.composable, fun _ _ _ => rfl, fun _ _ _ => rfl, fun _ _ _ => rfl, fun _ _ _ _ _ => rfl⟩

/-- R343: a host action changes memory, mappings, the configuration index and the registry only. -/
theorem applyAction_sameButHooks (act : HostAction) : Op.Keeps SameButHooks (applyAction act) :=
  SameButHooks.keeper.action act

/-- R343: a hook never writes the processor registers, the counters, the options or the parameters. -/
theorem invokeHook_sameButHooks (call : HookCall) : Op.Keeps SameButHooks (invokeHook call) :=
  SameButHooks.keeper.hook call

/-- A read changes only what hooks change. -/
theorem memRead_sameButHooks (a : Word) : Op.Keeps SameButHooks (memRead a) :=
  SameButHooks.keeper.read a

/-- A write changes only what hooks change. -/
theorem memWrite_sameButHooks (a : Word) (v : Byte) : Op.Keeps SameButHooks (memWrite a v) :=
  SameButHooks.keeper.write a v

/-! ## The canonical form is kept -/

/-- `t`'s memory is canonical if `s`'s is. -/
def KeepsWf (s t : State) : Prop := s.mem.wf = true → t.mem.wf = true

theorem KeepsWf.composable : Composable KeepsWf where
  refl _ h := h
  trans _ _ _ h1 h2 h := h2 (h1 h)

/-- A store keeps the canonical form. -/
theorem store_keepsWf (s : State) (k : Nat) (v : Byte) :
    KeepsWf s (s.setMem (s.mem.store k v)) := fun h => Memory.wf_store h k v

/-- Hooks and host actions keep the canonical form. -/
theorem KeepsWf.keeper : HookKeeper KeepsWf where
  composable := KeepsWf.composable
  store := store_keepsWf
  maps s m h hw := by
    unfold Memory.wf at *
    rw [State.setMem_mem, h]
    exact hw
  registry _ _ _ h := h
  script _ _ _ _ _ h := h

/-- Every host action keeps the canonical form. -/
theorem applyAction_keepsWf (act : HostAction) : Op.Keeps KeepsWf (applyAction act) :=
  KeepsWf.keeper.action act

/-- A hook keeps the canonical form. -/
theorem invokeHook_keepsWf (call : HookCall) : Op.Keeps KeepsWf (invokeHook call) :=
  KeepsWf.keeper.hook call

/-- A read keeps the canonical form. -/
theorem memRead_keepsWf (a : Word) : Op.Keeps KeepsWf (memRead a) := KeepsWf.keeper.read a

/-- A write keeps the canonical form. -/
theorem memWrite_keepsWf (a : Word) (v : Byte) : Op.Keeps KeepsWf (memWrite a v) :=
  KeepsWf.keeper.write a v

/-! ## Reads and writes of backing bytes -/

/-- A read of an address that can be peeked answers the byte and changes nothing. -/
theorem memRead_of_peek {s : State} {a : Word} {v : Byte} (h : s.peek a = some v) :
    memRead a s = .ok (v, s) := by
  obtain ⟨k, hk, rfl⟩ := State.readSlot_of_peek h
  simp [memRead, readWith, hk]

/-- A read of the host inside a hook, from an address that can be peeked, keeps the byte for it. -/
theorem hostRead_of_peek {s : State} {a : Word} {v : Byte} (h : s.peek a = some v) :
    hostRead a s = .ok ((), { s with hostBytes := [v] }) := by
  obtain ⟨k, hk, rfl⟩ := State.readSlot_of_peek h
  simp only [hostRead]
  rw [Op.bind_of_ok (a := s.mem.byteAt k) (t := s) (by simp [readWith, hk])]
  rfl

/-- A write to a backing byte stores it and changes nothing else. -/
theorem memWrite_of_slot {s : State} {a : Word} {k : Nat} (h : s.writeSlot a = some (.byte k))
    (v : Byte) : memWrite a v s = .ok ((), s.setMem (s.mem.store k v)) := by
  simp [memWrite, writeWith, h]

/-- Without device hooks no address reads from a device. -/
theorem Memory.readSlot_not_device {m : Memory} (h : m.plain = true) (a port : Nat) :
    m.readSlot a ≠ some (.device port) := by
  unfold Memory.readSlot
  split
  · simp
  · rename_i r hr
    have hmem := List.mem_of_find?_eq_some hr
    have hp := List.all_eq_true.1 h r hmem
    simp only [Bool.and_eq_true] at hp
    cases hrd : r.rd with
    | none => simp
    | some b =>
      cases b with
      | bytes o => simp [Backing.slot]
      | segment id => simp [Backing.slot]
      | device q => simp [hrd, Backing.plain] at hp

/-- Without device hooks no address writes to a device. -/
theorem Memory.writeSlot_not_device {m : Memory} (h : m.plain = true) (a port : Nat) :
    m.writeSlot a ≠ some (.device port) := by
  unfold Memory.writeSlot
  split
  · simp
  · rename_i r hr
    have hmem := List.mem_of_find?_eq_some hr
    have hp := List.all_eq_true.1 h r hmem
    simp only [Bool.and_eq_true] at hp
    cases hwr : r.wr with
    | none => simp
    | some b =>
      cases b with
      | bytes o => simp [Backing.slot]
      | segment id => simp [Backing.slot]
      | device q => simp [hwr, Backing.plain] at hp

/-- Without device hooks a read that answers gives the byte peeked and changes nothing. -/
theorem memRead_plain {s t : State} {a : Word} {v : Byte} (hp : s.mem.plain = true)
    (h : memRead a s = .ok (v, t)) : t = s ∧ s.peek a = some v := by
  cases hk : s.readSlot a with
  | none => simp [memRead, readWith, hk] at h
  | some slot =>
    cases slot with
    | byte k =>
      simp only [memRead, readWith, Op.get_bind, hk, Op.pure_apply, Except.ok.injEq, Prod.mk.injEq] at h
      exact ⟨h.2.symm, by simp [State.peek, hk, h.1]⟩
    | device port =>
      unfold State.readSlot at hk
      split at hk
      · exact absurd hk (Memory.readSlot_not_device hp _ _)
      · cases hk

/-- Without device hooks a write that answers stores one backing byte, or is dropped by
ROM_WRITE_POLICY. -/
theorem memWrite_plain {s t : State} {a : Word} {v : Byte} (hp : s.mem.plain = true)
    (h : memWrite a v s = .ok ((), t)) :
    (∃ k, s.writeSlot a = some (.byte k) ∧ t = s.setMem (s.mem.store k v)) ∨
      (s.writeSlot a = none ∧ t = s) := by
  cases hk : s.writeSlot a with
  | none =>
    simp only [memWrite, writeWith, Op.get_bind, hk] at h
    refine .inr ⟨rfl, ?_⟩
    split at h
    · simpa using h.symm
    · simp at h
  | some slot =>
    cases slot with
    | byte k =>
      rw [memWrite_of_slot hk] at h
      exact .inl ⟨k, rfl, by simpa using h.symm⟩
    | device port =>
      unfold State.writeSlot at hk
      split at hk
      · exact absurd hk (Memory.writeSlot_not_device hp _ _)
      · cases hk

/-- A store leaves the mappings, so plain memory stays plain. -/
@[simp] theorem Memory.plain_store (m : Memory) (k : Nat) (v : Byte) :
    (m.store k v).plain = m.plain := rfl

/-! ## Words and the stack -/

/-- `hi * 256 + lo` (00_scope.md R9). -/
theorem wordOf_toNat (hi lo : Byte) : (wordOf hi lo).toNat = hi.toNat * 256 + lo.toNat := by
  have h : (wordOf hi lo).toNat = hi.toNat <<< 8 ||| lo.toNat := BitVec.toNat_append hi lo
  rw [h, ← Nat.shiftLeft_add_eq_or_of_lt lo.isLt, Nat.shiftLeft_eq]

theorem lowByte_toNat (w : Word) : (lowByte w).toNat = w.toNat % 256 := by
  simp [lowByte]

theorem highByte_toNat (w : Word) : (highByte w).toNat = w.toNat / 256 := by
  have := w.isLt
  simp [highByte, Nat.shiftRight_eq_div_pow]
  omega

/-- A word is made of its two bytes. -/
@[simp] theorem wordOf_high_low (w : Word) : wordOf (highByte w) (lowByte w) = w := by
  apply BitVec.eq_of_toNat_eq
  rw [wordOf_toNat, highByte_toNat, lowByte_toNat]
  omega

@[simp] theorem highByte_wordOf (hi lo : Byte) : highByte (wordOf hi lo) = hi := by
  apply BitVec.eq_of_toNat_eq
  have := lo.isLt
  rw [highByte_toNat, wordOf_toNat]
  omega

@[simp] theorem lowByte_wordOf (hi lo : Byte) : lowByte (wordOf hi lo) = lo := by
  apply BitVec.eq_of_toNat_eq
  have := lo.isLt
  rw [lowByte_toNat, wordOf_toNat]
  omega

/-- A word read from two backing bytes (20_memory.md R54). -/
theorem memReadWord_of_peek {s : State} {a : Word} {lo hi : Byte} (h0 : s.peek a = some lo)
    (h1 : s.peek (a + 1) = some hi) : memReadWord a s = .ok (wordOf hi lo, s) := by
  simp only [memReadWord]
  rw [Op.bind_of_ok (memRead_of_peek h0), Op.bind_of_ok (memRead_of_peek h1)]
  rfl

/-- A push onto a backing byte (R150). -/
theorem push8_of_slot {s : State} {k : Nat} (h : s.writeSlot (stackAddress s.sp) = some (.byte k))
    (v : Byte) : push8 v s = .ok ((), (s.setMem (s.mem.store k v)).setSp (s.sp - 1)) := by
  simp only [push8, Op.get_bind]
  rw [Op.bind_of_ok (memWrite_of_slot h v)]
  rfl

/-- A pull from an address that can be peeked (R151). -/
theorem pull8_of_peek {s : State} {v : Byte} (h : s.peek (stackAddress (s.sp + 1)) = some v) :
    pull8 s = .ok (v, s.setSp (s.sp + 1)) := by
  simp only [pull8, Op.modify_bind, Op.get_bind]
  exact memRead_of_peek h

/-- The stack page: `$0100` to `$01FF` (10_state.md R23). -/
theorem stackAddress_toNat (sp : Byte) : (stackAddress sp).toNat = 256 + sp.toNat := by
  have := sp.isLt
  simp [stackAddress, zeroExtend, BitVec.toNat_add]
  omega

/-- Different stack pointers address different bytes of the stack page. -/
theorem stackAddress_injective {sp sp' : Byte} (h : stackAddress sp = stackAddress sp') : sp = sp' := by
  have h' := congrArg BitVec.toNat h
  rw [stackAddress_toNat, stackAddress_toNat] at h'
  exact BitVec.eq_of_toNat_eq (by omega)

end Sys2Proof.Machine
end

