-- ==== Sys2Proof/Laws/Exec.lean ====
section
/-!
SUPPORT. Every instruction is its operand form around its mnemonic's effect
(40_step_addressing_flags.md R123): `exec i` runs `operation i`, which a proof takes apart by
operand form and then by mnemonic instead of by 151 constructors; and it is the behavior a table row
of any mnemonic and mode runs (30_encoding.md R94).
-/

namespace Sys2Proof.Machine

/-! ## What a mnemonic does, whatever its operand -/

/-- Shape (b): what a byte does to the registers (42_byte_operand.md R200 to R211). -/
def byteEffect (m : Mnemonic) (v : Byte) (s : State) : State :=
  match m with
  | .lda => (s.setA v).setZN v
  | .ldx => (s.setX v).setZN v
  | .ldy => (s.setY v).setZN v
  | .adc => s.setSum (addWithCarry s.a v (s.flag .c))
  | .sbc => s.setSum (subtractWithCarry s.a v (s.flag .c))
  | .and => (s.setA (s.a &&& v)).setZN (s.a &&& v)
  | .ora => (s.setA (s.a ||| v)).setZN (s.a ||| v)
  | .eor => (s.setA (s.a ^^^ v)).setZN (s.a ^^^ v)
  | .cmp => s.setP ((compareBytes s.a v).status s.p)
  | .cpx => s.setP ((compareBytes s.x v).status s.p)
  | .cpy => s.setP ((compareBytes s.y v).status s.p)
  | .bit => s.setP (bitTest s.a v s.p)
  | _ => s

/-- The mnemonics of 42_byte_operand.md. -/
def readsByte (m : Mnemonic) : Bool :=
  [Mnemonic.lda, .ldx, .ldy, .adc, .sbc, .and, .ora, .eor, .cmp, .cpx, .cpy, .bit].contains m

/-- Shape (a): what an implied instruction does to the registers (41_register_only.md). -/
def registerEffect (m : Mnemonic) (s : State) : State :=
  match m with
  | .tax => (s.setX s.a).setZN s.a
  | .tay => (s.setY s.a).setZN s.a
  | .txa => (s.setA s.x).setZN s.x
  | .tya => (s.setA s.y).setZN s.y
  | .tsx => (s.setX s.sp).setZN s.sp
  | .txs => s.setSp s.x
  | .inx => (s.setX (s.x + 1)).setZN (s.x + 1)
  | .iny => (s.setY (s.y + 1)).setZN (s.y + 1)
  | .dex => (s.setX (s.x - 1)).setZN (s.x - 1)
  | .dey => (s.setY (s.y - 1)).setZN (s.y - 1)
  | .clc => s.putFlag .c false
  | .sec => s.putFlag .c true
  | .cli => s.putFlag .i false
  | .sei => s.putFlag .i true
  | .cld => s.putFlag .d false
  | .sed => s.putFlag .d true
  | .clv => s.putFlag .v false
  | _ => s

/-- The implied instructions: shape (a) and the stack instructions (46_stack_subroutine_interrupt.md). -/
def impliedOp (m : Mnemonic) : Op Unit :=
  match m with
  | .pha => phaBehavior
  | .pla => plaBehavior
  | .php => phpBehavior
  | .plp => pullStatus
  | .rts => rtsBehavior
  | .brk => brkBehavior
  | .rti => returnFromException
  | _ => modify (registerEffect m)

/-- The mnemonics of 44_shift_rotate.md. -/
def isShift (m : Mnemonic) : Bool := [Mnemonic.asl, .lsr, .rol, .ror].contains m

/-- The mnemonics of 45_branches.md. -/
def isBranch (m : Mnemonic) : Bool :=
  [Mnemonic.bcc, .bcs, .beq, .bne, .bmi, .bpl, .bvc, .bvs].contains m

/-- The mnemonics that take an address and are no shift (43_address_operand.md, JSR). -/
def takesAddress (m : Mnemonic) : Bool :=
  [Mnemonic.sta, .stx, .sty, .inc, .dec, .jmp, .jsr].contains m

/-- The helper of a shift or rotate (44_shift_rotate.md). -/
def shifter (m : Mnemonic) : Byte → Bool → ShiftResult :=
  match m with
  | .asl => shiftLeft
  | .lsr => shiftRight
  | .rol => rotateLeft
  | _ => rotateRight

/-- The condition of a branch (45_branches.md R251 to R258). -/
def branchCondition (m : Mnemonic) (s : State) : Bool :=
  match m with
  | .bcc => !s.flag .c
  | .bcs => s.flag .c
  | .beq => s.flag .z
  | .bne => !s.flag .z
  | .bmi => s.flag .n
  | .bpl => !s.flag .n
  | .bvc => !s.flag .v
  | _ => s.flag .v

/-- Shape (c): what happens at the resolved address (43_address_operand.md, 44_shift_rotate.md, JSR). -/
def addressOp (m : Mnemonic) (addr : Word) : Op Unit :=
  match m with
  | .sta => staBehavior addr
  | .stx => stxBehavior addr
  | .sty => styBehavior addr
  | .inc => incBehavior addr
  | .dec => decBehavior addr
  | .jmp => jmpBehavior addr
  | .jsr => jsrBehavior addr
  | _ => shiftMemory (shifter m) addr

/-! ## Every instruction -/

/-- The operation an instruction is. -/
def operation (i : Instr) : Op Unit :=
  match i.operand with
  | .implied => impliedOp i.mnemonic
  | .accumulator => shiftAccumulator (shifter i.mnemonic)
  | .immediate nn => modify (byteEffect i.mnemonic nn)
  | .relative nn => modify fun s => branch (branchCondition i.mnemonic s) nn s
  | .memory m =>
    if readsByte i.mnemonic then loadOperand m >>= fun v => modify (byteEffect i.mnemonic v)
    else locate m >>= addressOp i.mnemonic

/-- The dispatch runs that operation. -/
theorem exec_eq_complete (i : Instr) (s : State) : exec i s = complete (operation i) s := by
  cases i <;> rfl

/-- For the documented pairs the behavior of mnemonic and mode is that operation (R95). -/
theorem behavior_eq_operation (i : Instr) : behavior i.mnemonic i.operand = some (operation i) := by
  cases i <;> rfl

/-- The pair of a documented instruction is that instruction's. -/
theorem ofParts_parts (i : Instr) : Instr.ofParts i.mnemonic i.operand = some i := by
  cases i <;> rfl

/-- And no other pair is an instruction's. -/
theorem parts_of_ofParts {m : Mnemonic} {o : Operand} {i : Instr} (h : Instr.ofParts m o = some i) :
    i.mnemonic = m ∧ i.operand = o := by
  cases m <;> rcases o with _ | _ | _ | _ | a <;> (try cases a) <;> first
    | (cases h; exact ⟨rfl, rfl⟩)
    | cases h

/-- What any behavior on any operand is: by the shape of its mnemonic, the resolution, what the shape
asks for, then the mnemonic's effect (R120, R123). -/
inductive IsBehavior (m : Mnemonic) (o : Operand) : Op Unit → Prop where
  | bare : readsByte m = false → isBranch m = false → isShift m = false → takesAddress m = false →
      IsBehavior m o (resolveOnly o >>= fun _ => impliedOp m)
  | value {value : Op Byte} : readsByte m = true → valueOf o = some value →
      IsBehavior m o (value >>= fun v => modify (byteEffect m v))
  | branch {value : Op Byte} : isBranch m = true → valueOf o = some value →
      IsBehavior m o (value >>= fun nn => modify fun s => branch (branchCondition m s) nn s)
  | accumulator : isShift m = true → o = .accumulator → IsBehavior m o (shiftAccumulator (shifter m))
  | address {address : Op Word} : isShift m = true ∨ takesAddress m = true →
      addressOf o = some address → IsBehavior m o (address >>= addressOp m)

theorem isBehavior_of_eq {m : Mnemonic} {o : Operand} {op : Op Unit} (h : behavior m o = some op) :
    IsBehavior m o op := by
  have bare : readsByte m = false → isBranch m = false → isShift m = false → takesAddress m = false →
      effectOf m = .bare (impliedOp m) → IsBehavior m o op := by
    intro h1 h2 h3 h4 e
    rw [behavior, e] at h
    cases h
    exact .bare h1 h2 h3 h4
  have value : readsByte m = true → (effectOf m = .value fun v => modify (byteEffect m v)) →
      IsBehavior m o op := by
    intro h1 e
    rw [behavior, e] at h
    obtain ⟨v, hv, rfl⟩ := Option.map_eq_some_iff.1 h
    exact .value h1 hv
  have branch : isBranch m = true →
      (effectOf m = .value fun nn => modify fun s => branch (branchCondition m s) nn s) →
      IsBehavior m o op := by
    intro h1 e
    rw [behavior, e] at h
    obtain ⟨v, hv, rfl⟩ := Option.map_eq_some_iff.1 h
    exact .branch h1 hv
  have address : takesAddress m = true → effectOf m = .address (addressOp m) → IsBehavior m o op := by
    intro h1 e
    rw [behavior, e] at h
    obtain ⟨v, hv, rfl⟩ := Option.map_eq_some_iff.1 h
    exact .address (.inr h1) hv
  have shift : isShift m = true → effectOf m = .shift (shiftAccumulator (shifter m)) (addressOp m) →
      IsBehavior m o op := by
    intro h1 e
    simp only [behavior, e, Effect.on] at h
    split at h
    · rename_i ho
      cases h
      exact .accumulator h1 ho
    · obtain ⟨v, hv, rfl⟩ := Option.map_eq_some_iff.1 h
      exact .address (.inl h1) hv
  cases m <;> first
    | exact bare rfl rfl rfl rfl rfl
    | exact value rfl rfl
    | exact branch rfl rfl
    | exact address rfl rfl
    | exact shift rfl rfl

/-- Every instruction is the behavior of its mnemonic on its operand. -/
theorem isBehavior_operation (i : Instr) : IsBehavior i.mnemonic i.operand (operation i) :=
  isBehavior_of_eq (behavior_eq_operation i)

/-- A next state of an instruction is the answer of its operation. -/
theorem exec_eq_next {i : Instr} {s t : State} : exec i s = .next t ↔ operation i s = .ok ((), t) := by
  rw [exec_eq_complete, complete_eq_next]

/-- Shape (b) (R123): the byte is obtained, then the mnemonic has its effect. -/
theorem exec_eq_value {i : Instr} {value : Op Byte} (hm : readsByte i.mnemonic = true)
    (hv : valueOf i.operand = some value) (s : State) :
    exec i s = complete (value >>= fun v => modify (byteEffect i.mnemonic v)) s := by
  rw [exec_eq_complete]
  unfold operation
  revert hv
  cases ho : i.operand with
  | implied => simp [valueOf]
  | accumulator => simp [valueOf]
  | immediate nn => rintro ⟨⟩; rfl
  | relative nn =>
    cases i <;> simp [Instr.operand] at ho <;> simp [Instr.mnemonic, readsByte] at hm
  | memory m =>
    rintro ⟨⟩
    simp [hm]

/-- Shape (c) (R123): the address is resolved, then the mnemonic acts on it. -/
theorem exec_eq_address {i : Instr} {address : Op Word} (hm : readsByte i.mnemonic = false)
    (hv : addressOf i.operand = some address) (s : State) :
    exec i s = complete (address >>= addressOp i.mnemonic) s := by
  rw [exec_eq_complete]
  unfold operation
  revert hv
  cases ho : i.operand with
  | memory m =>
    rintro ⟨⟩
    simp [hm]
  | _ => simp [addressOf]

/-- Shape (b) when the byte is obtained. -/
theorem exec_of_value {i : Instr} {s s1 : State} {v : Byte} {value : Op Byte}
    (hm : readsByte i.mnemonic = true) (hv : valueOf i.operand = some value)
    (h : value s = .ok (v, s1)) : exec i s = .next (byteEffect i.mnemonic v s1) := by
  rw [exec_eq_value hm hv, complete_eq_next, Op.bind_of_ok h]
  rfl

/-- Shape (c) when the address is resolved and the mnemonic's accesses answer. -/
theorem exec_of_address {i : Instr} {s s1 t : State} {addr : Word} {address : Op Word}
    (hm : readsByte i.mnemonic = false) (hv : addressOf i.operand = some address)
    (h : address s = .ok (addr, s1)) (h2 : addressOp i.mnemonic addr s1 = .ok ((), t)) :
    exec i s = .next t := by
  rw [exec_eq_address hm hv, complete_eq_next, Op.bind_of_ok h, h2]

end Sys2Proof.Machine
end

