-- ==== Sys2Proof/Laws/Operands.lean ====
section
/-!
SUPPORT. Everything the operand forms of Machine/Operands.lean can do, once
(40_step_addressing_flags.md R123, R125 to R138): what resolution keeps, that it changes nothing on
plain memory but the note of a crossed page, and where an instruction's next state comes from.
-/

namespace Sys2Proof.Machine

/-! ## What resolution keeps -/

section
variable {R : State → State → Prop} (hR : Composable R) (read : ∀ a, Op.Keeps R (memRead a))

include hR read

/-- A word read keeps what reads keep. -/
theorem memReadWord_keeps (a : Word) : Op.Keeps R (memReadWord a) :=
  Op.Keeps.bind hR (read _) fun _ =>
    Op.Keeps.bind hR (read _) fun _ => Op.Keeps.pure hR _

/-- A zero-page pointer read keeps what reads keep. -/
theorem readZeroPagePointer_keeps (p : Byte) : Op.Keeps R (readZeroPagePointer p) := by
  refine Op.Keeps.bind hR (Op.Keeps.get hR) fun s => ?_
  split
  · exact memReadWord_keeps hR read _
  · exact Op.Keeps.bind hR (read _) fun _ =>
      Op.Keeps.bind hR (read _) fun _ => Op.Keeps.pure hR _

/-- The pointer read of JMP keeps what reads keep. -/
theorem readJumpPointer_keeps (ptr : Word) : Op.Keeps R (readJumpPointer ptr) :=
  Op.Keeps.bind hR (read _) fun _ =>
    Op.Keeps.bind hR (read _) fun _ => Op.Keeps.pure hR _

/-- Resolution keeps what reads keep. -/
theorem effectiveAddress_keeps (m : Address) : Op.Keeps R (effectiveAddress m) := by
  have get := fun {β : Type} {f : State → Op β} (h : ∀ s, Op.Keeps R (f s)) =>
    Op.Keeps.bind hR (Op.Keeps.get hR) h
  have zp := readZeroPagePointer_keeps hR read
  cases m with
  | zeroPage nn => exact Op.Keeps.pure hR _
  | zeroPageX nn => exact get fun _ => Op.Keeps.pure hR _
  | zeroPageY nn => exact get fun _ => Op.Keeps.pure hR _
  | absolute w => exact Op.Keeps.pure hR _
  | absoluteX w => exact get fun _ => Op.Keeps.pure hR _
  | absoluteY w => exact get fun _ => Op.Keeps.pure hR _
  | indexedIndirectX nn =>
    exact get fun _ => Op.Keeps.bind hR (zp _) fun _ => Op.Keeps.pure hR _
  | indirectIndexedY nn => exact Op.Keeps.bind hR (zp _) fun _ => get fun _ => Op.Keeps.pure hR _
  | indirect w =>
    exact Op.Keeps.bind hR (readJumpPointer_keeps hR read _) fun _ => Op.Keeps.pure hR _

variable (events : ∀ (s : State) (e : StepEvents), R s (s.setEvents e))

include events

/-- The resolved address keeps what reads and the note of a crossed page keep. -/
theorem locate_keeps (m : Address) : Op.Keeps R (locate m) :=
  Op.Keeps.bind hR (effectiveAddress_keeps hR read m) fun r =>
    Op.Keeps.bind hR (Op.Keeps.modify fun s => events s _) fun _ => Op.Keeps.pure hR r.1

/-- The operand byte keeps what reads and the note of a crossed page keep. -/
theorem loadOperand_keeps (m : Address) : Op.Keeps R (loadOperand m) :=
  Op.Keeps.bind hR (locate_keeps hR read events m) fun _ => read _

end

/-! ## Resolution on plain memory -/

/-- Without device hooks a pointer read changes nothing. -/
theorem readZeroPagePointer_plain {s t : State} {p : Byte} {w : Word} (hp : s.mem.plain = true)
    (h : readZeroPagePointer p s = .ok (w, t)) : t = s := by
  simp only [readZeroPagePointer] at h
  rw [Op.get_bind] at h
  cases hz : s.config.zpPtrWrap <;> rw [hz] at h <;>
  · obtain ⟨lo, u, h1, h2⟩ := Op.bind_ok_iff.1 h
    obtain ⟨rfl, -⟩ := memRead_plain hp h1
    obtain ⟨hi, v, h3, h4⟩ := Op.bind_ok_iff.1 h2
    obtain ⟨rfl, -⟩ := memRead_plain hp h3
    simp at h4; exact h4.2.symm

/-- Without device hooks a word read changes nothing and gives the two bytes peeked. -/
theorem memReadWord_plain {s t : State} {a w : Word} (hp : s.mem.plain = true)
    (h : memReadWord a s = .ok (w, t)) :
    t = s ∧ ∃ lo hi, s.peek a = some lo ∧ s.peek (a + 1) = some hi ∧ w = wordOf hi lo := by
  obtain ⟨lo, u, h1, h2⟩ := Op.bind_ok_iff.1 h
  obtain ⟨rfl, hlo⟩ := memRead_plain hp h1
  obtain ⟨hi, v, h3, h4⟩ := Op.bind_ok_iff.1 h2
  obtain ⟨rfl, hhi⟩ := memRead_plain hp h3
  simp only [Op.pure_apply, Except.ok.injEq, Prod.mk.injEq] at h4
  exact ⟨h4.2.symm, lo, hi, hlo, hhi, h4.1.symm⟩

/-- Without device hooks resolution changes nothing. -/
theorem effectiveAddress_plain {s t : State} {m : Address} {r : Word × Bool}
    (hp : s.mem.plain = true) (h : effectiveAddress m s = .ok (r, t)) : t = s := by
  cases m with
  | zeroPage nn => simp [effectiveAddress] at h; exact h.2.symm
  | zeroPageX nn => simp [effectiveAddress] at h; exact h.2.symm
  | zeroPageY nn => simp [effectiveAddress] at h; exact h.2.symm
  | absolute w => simp [effectiveAddress] at h; exact h.2.symm
  | absoluteX w => simp [effectiveAddress] at h; exact h.2.symm
  | absoluteY w => simp [effectiveAddress] at h; exact h.2.symm
  | indexedIndirectX nn =>
    simp only [effectiveAddress, Op.get_bind] at h
    obtain ⟨w, u, h1, h2⟩ := Op.bind_ok_iff.1 h
    obtain rfl := readZeroPagePointer_plain hp h1
    simp at h2
    exact h2.2.symm
  | indirectIndexedY nn =>
    simp only [effectiveAddress] at h
    obtain ⟨w, u, h1, h2⟩ := Op.bind_ok_iff.1 h
    obtain rfl := readZeroPagePointer_plain hp h1
    simp at h2
    exact h2.2.symm
  | indirect w =>
    simp only [effectiveAddress, readJumpPointer] at h
    obtain ⟨w', u, h1, h2⟩ := Op.bind_ok_iff.1 h
    obtain ⟨lo, u1, h3, h4⟩ := Op.bind_ok_iff.1 h1
    obtain ⟨rfl, -⟩ := memRead_plain hp h3
    obtain ⟨hi, u2, h5, h6⟩ := Op.bind_ok_iff.1 h4
    obtain ⟨rfl, -⟩ := memRead_plain hp h5
    simp at h6 h2
    rw [← h2.2, ← h6.2]

/-- The resolved address, from the resolution. -/
theorem locate_of_ok {s t : State} {m : Address} {a : Word} {crossed : Bool}
    (h : effectiveAddress m s = .ok ((a, crossed), t)) :
    locate m s = .ok (a, t.setEvents { t.events with crossed := crossed }) := by
  simp only [locate]
  rw [Op.bind_of_ok h]
  rfl

/-- What resolving an address that answers did. -/
theorem locate_eq {s t : State} {m : Address} {a : Word} (h : locate m s = .ok (a, t)) :
    ∃ crossed u, effectiveAddress m s = .ok ((a, crossed), u) ∧
      t = u.setEvents { u.events with crossed := crossed } := by
  simp only [locate] at h
  obtain ⟨r, u, h1, h2⟩ := Op.bind_ok_iff.1 h
  simp [noteCrossed] at h2
  exact ⟨r.2, u, by rw [h1, ← h2.1], h2.2.symm⟩

/-- Without device hooks the resolved address leaves only the note of a crossed page. -/
theorem locate_plain {s t : State} {m : Address} {a : Word} (hp : s.mem.plain = true)
    (h : locate m s = .ok (a, t)) : ∃ e, t = s.setEvents e := by
  obtain ⟨c, u, h1, rfl⟩ := locate_eq h
  obtain rfl := effectiveAddress_plain hp h1
  exact ⟨_, rfl⟩

/-- Without device hooks the operand byte leaves only the note of a crossed page. -/
theorem loadOperand_plain {s t : State} {m : Address} {v : Byte} (hp : s.mem.plain = true)
    (h : loadOperand m s = .ok (v, t)) : ∃ e, t = s.setEvents e := by
  obtain ⟨a, u, h1, h2⟩ := Op.bind_ok_iff.1 h
  obtain ⟨e, rfl⟩ := locate_plain hp h1
  obtain ⟨rfl, -⟩ := memRead_plain (by simpa using hp) h2
  exact ⟨e, rfl⟩

/-- Without device hooks a shape (b) operand leaves only the note of a crossed page. -/
theorem valueOf_plain {o : Operand} {value : Op Byte} (ho : valueOf o = some value) {s t : State}
    {v : Byte} (hp : s.mem.plain = true) (h : value s = .ok (v, t)) : ∃ e, t = s.setEvents e := by
  have same : ∀ nn : Byte, (pure nn : Op Byte) s = .ok (v, t) → ∃ e, t = s.setEvents e := by
    intro nn h
    simp at h
    exact ⟨s.events, by rw [← h.2]; rfl⟩
  cases o with
  | implied => cases ho
  | accumulator => cases ho
  | immediate nn => cases ho; exact same nn h
  | relative nn => cases ho; exact same nn h
  | memory m => cases ho; exact loadOperand_plain hp h

/-- Without device hooks a shape (c) operand leaves only the note of a crossed page. -/
theorem addressOf_plain {o : Operand} {address : Op Word} (ho : addressOf o = some address)
    {s t : State} {a : Word} (hp : s.mem.plain = true) (h : address s = .ok (a, t)) :
    ∃ e, t = s.setEvents e := by
  cases o with
  | memory m => cases ho; exact locate_plain hp h
  | _ => cases ho

/-- Without device hooks INC and DEC write once and then set the flags (43_address_operand.md R223). -/
theorem modifyMemory_plain {s t : State} {f : Byte → Byte} {addr : Word} (hp : s.mem.plain = true)
    (h : modifyMemory f addr s = .ok ((), t)) :
    ∃ v u, s.peek addr = some v ∧ memWrite addr (f v) s = .ok ((), u) ∧ t = u.setZN (f v) := by
  obtain ⟨v, u, h1, h2⟩ := Op.bind_ok_iff.1 h
  obtain ⟨rfl, hv⟩ := memRead_plain hp h1
  obtain ⟨_, w, h3, h4⟩ := Op.bind_ok_iff.1 h2
  simp at h4
  exact ⟨v, w, hv, h3, h4.symm⟩

/-- Without device hooks a shift on memory writes once and then sets the flags
(44_shift_rotate.md R240). -/
theorem shiftMemory_plain {s t : State} {f : Byte → Bool → ShiftResult} {addr : Word}
    (hp : s.mem.plain = true) (h : shiftMemory f addr s = .ok ((), t)) :
    ∃ v u, s.peek addr = some v ∧ memWrite addr (f v (s.flag .c)).value s = .ok ((), u) ∧
      t = u.setP ((f v (s.flag .c)).status u.p) := by
  obtain ⟨v, u, h1, h2⟩ := Op.bind_ok_iff.1 h
  obtain ⟨rfl, hv⟩ := memRead_plain hp h1
  simp only [Op.get_bind] at h2
  obtain ⟨_, w, h3, h4⟩ := Op.bind_ok_iff.1 h2
  simp at h4
  exact ⟨v, w, hv, h3, h4.symm⟩

/-! ## Where a next state comes from -/

/-- An instruction that consumes a byte has a form that gives one. -/
theorem valueOf_of_readsByte {i : Instr} (h : readsByte i.mnemonic = true) :
    ∃ value, valueOf i.operand = some value := by
  cases i <;> first | exact ⟨_, rfl⟩ | exact absurd h (by decide)

/-- The next state of a shape (b) instruction: its byte's effect after the operand was obtained. -/
theorem exec_value_next {i : Instr} {s t : State} (hm : readsByte i.mnemonic = true)
    (h : exec i s = .next t) : ∃ value v s1, valueOf i.operand = some value ∧
      value s = .ok (v, s1) ∧ t = byteEffect i.mnemonic v s1 := by
  obtain ⟨value, hv⟩ := valueOf_of_readsByte hm
  rw [exec_eq_value hm hv, complete_eq_next] at h
  obtain ⟨v, s1, h1, h2⟩ := Op.bind_ok_iff.1 h
  simp at h2
  exact ⟨value, v, s1, hv, h1, h2.symm⟩

/-- The next state of a shape (c) instruction: its accesses after the address was resolved. -/
theorem exec_address_next {i : Instr} {s t : State} {address : Op Word}
    (hm : readsByte i.mnemonic = false) (ha : addressOf i.operand = some address)
    (h : exec i s = .next t) : ∃ addr s1, address s = .ok (addr, s1) ∧
      addressOp i.mnemonic addr s1 = .ok ((), t) := by
  rw [exec_eq_address hm ha, complete_eq_next] at h
  exact Op.bind_ok_iff.1 h

end Sys2Proof.Machine
end

