-- ==== Sys2Proof/Laws/Stack.lean ====
section
/-!
SUPPORT. Everything the stack primitives, exception entry and exception return of Machine/Ops.lean can
do, once (40_step_addressing_flags.md R150 to R153, 46_stack_subroutine_interrupt.md R276, R277,
60_exceptions.md R322): on backing bytes the resulting state, on plain memory where a next state comes
from, and what each keeps.
-/

namespace Sys2Proof.Machine

/-! ## On backing bytes -/

/-- A word pushed onto two backing bytes (R152). -/
theorem push16_of_slots {s : State} {k k' : Nat}
    (h : s.writeSlot (stackAddress s.sp) = some (.byte k))
    (h' : s.writeSlot (stackAddress (s.sp - 1)) = some (.byte k')) (w : Word) :
    push16 w s = .ok ((), (s.setMem ((s.mem.store k (highByte w)).store k' (lowByte w))).setSp
      (s.sp - 1 - 1)) := by
  simp only [push16]
  rw [Op.bind_of_ok (push8_of_slot h _)]
  rw [push8_of_slot (k := k') (by simpa using h')]
  rfl

/-- A word pulled from two addresses that can be peeked (R153). -/
theorem pull16_of_peek {s : State} {lo hi : Byte} (h : s.peek (stackAddress (s.sp + 1)) = some lo)
    (h' : s.peek (stackAddress (s.sp + 1 + 1)) = some hi) :
    pull16 s = .ok (wordOf hi lo, s.setSp (s.sp + 1 + 1)) := by
  simp only [pull16]
  rw [Op.bind_of_ok (pull8_of_peek h), Op.bind_of_ok (pull8_of_peek (v := hi) (by simpa using h'))]
  rfl

/-- Exception entry onto three backing bytes, with a vector that can be peeked after the pushes. -/
theorem enterException_of_slots {s : State} {k1 k2 k3 : Nat} {lo hi : Byte} {returnPc vector : Word}
    {copy : Byte → Byte} {m : Memory}
    (h1 : s.writeSlot (stackAddress s.sp) = some (.byte k1))
    (h2 : s.writeSlot (stackAddress (s.sp - 1)) = some (.byte k2))
    (h3 : s.writeSlot (stackAddress (s.sp - 1 - 1)) = some (.byte k3))
    (hm : m = ((s.mem.store k1 (highByte returnPc)).store k2 (lowByte returnPc)).store k3 (copy s.p))
    (hlo : (s.setMem m).peek vector = some lo) (hhi : (s.setMem m).peek (vector + 1) = some hi) :
    enterException returnPc copy vector s =
      .ok ((), (((s.setMem m).setSp (s.sp - 1 - 1 - 1)).putFlag .i true).setPc (wordOf hi lo)) := by
  have hpush : push8 (copy s.p) ((s.setMem ((s.mem.store k1 (highByte returnPc)).store k2
      (lowByte returnPc))).setSp (s.sp - 1 - 1)) = .ok ((), (s.setMem m).setSp (s.sp - 1 - 1 - 1)) := by
    rw [push8_of_slot (s := (s.setMem ((s.mem.store k1 (highByte returnPc)).store k2
      (lowByte returnPc))).setSp (s.sp - 1 - 1)) (k := k3) (by
        rw [State.writeSlot_setSp, State.writeSlot_setMem_store, State.writeSlot_setMem_store,
          State.setMem_self, State.setSp_sp, h3]), hm]
    rfl
  have hword : memReadWord vector (((s.setMem m).setSp (s.sp - 1 - 1 - 1)).putFlag .i true) =
      .ok (wordOf hi lo, ((s.setMem m).setSp (s.sp - 1 - 1 - 1)).putFlag .i true) :=
    memReadWord_of_peek (by rw [State.peek_putFlag, State.peek_setSp, hlo])
      (by rw [State.peek_putFlag, State.peek_setSp, hhi])
  simp only [enterException]
  rw [Op.bind_of_ok (push16_of_slots h1 h2 _), Op.get_bind]
  simp only [State.setSp_p, State.setMem_p]
  rw [Op.bind_of_ok hpush, Op.modify_bind, Op.bind_of_ok hword]
  rfl

/-! ## On plain memory: where an answer comes from -/

/-- Without device hooks a push stores at most one byte, the one SP addresses. -/
theorem push8_plain {s t : State} {v : Byte} (hp : s.mem.plain = true)
    (h : push8 v s = .ok ((), t)) :
    ∃ m : Memory, t = (s.setMem m).setSp (s.sp - 1) ∧ ((∃ k,
      s.writeSlot (stackAddress s.sp) = some (.byte k) ∧ m = s.mem.store k v) ∨ m = s.mem) := by
  simp only [push8, Op.get_bind] at h
  obtain ⟨_, u, h1, h2⟩ := Op.bind_ok_iff.1 h
  simp at h2
  rcases memWrite_plain hp h1 with ⟨k, hk, rfl⟩ | ⟨-, rfl⟩
  · exact ⟨_, h2.symm, .inl ⟨k, hk, rfl⟩⟩
  · exact ⟨u.mem, h2.symm, .inr rfl⟩

/-- Without device hooks a pull moves SP and changes no byte. -/
theorem pull8_plain {s t : State} {v : Byte} (hp : s.mem.plain = true) (h : pull8 s = .ok (v, t)) :
    t = s.setSp (s.sp + 1) ∧ s.peek (stackAddress (s.sp + 1)) = some v := by
  simp only [pull8, Op.modify_bind, Op.get_bind] at h
  exact memRead_plain (by simpa using hp) h

/-- Without device hooks a word pull moves SP by two and changes no byte. -/
theorem pull16_plain {s t : State} {w : Word} (hp : s.mem.plain = true)
    (h : pull16 s = .ok (w, t)) : t = s.setSp (s.sp + 1 + 1) := by
  obtain ⟨lo, u, h1, h2⟩ := Op.bind_ok_iff.1 h
  obtain ⟨rfl, -⟩ := pull8_plain hp h1
  obtain ⟨hi, v, h3, h4⟩ := Op.bind_ok_iff.1 h2
  obtain ⟨rfl, -⟩ := pull8_plain (by simpa using hp) h3
  simp at h4
  rw [← h4.2]
  rfl

/-- The memory `m` is `s`'s with at most the bytes that the stack pointers in `sps` address stored to. -/
inductive Pushed (s : State) : List Byte → Memory → Prop where
  | none : Pushed s [] s.mem
  | store {sps : List Byte} {m : Memory} {sp : Byte} {k : Nat} (v : Byte) (h : Pushed s sps m)
      (hk : s.writeSlot (stackAddress sp) = some (.byte k)) : Pushed s (sps ++ [sp]) (m.store k v)
  | skip {sps : List Byte} {m : Memory} (sp : Byte) (h : Pushed s sps m) : Pushed s (sps ++ [sp]) m

/-- Pushes change backing bytes only. -/
theorem Pushed.same {s : State} {sps : List Byte} {m : Memory} (h : Pushed s sps m) :
    m.maps = s.mem.maps ∧ m.segments = s.mem.segments ∧ m.cfg = s.mem.cfg := by
  induction h with
  | none => exact ⟨rfl, rfl, rfl⟩
  | store _ _ _ ih => exact ih
  | skip _ _ ih => exact ih

theorem Pushed.plain {s : State} {sps : List Byte} {m : Memory} (h : Pushed s sps m) :
    m.plain = s.mem.plain := by
  simp only [Memory.plain, h.same.1]

theorem Pushed.wf {s : State} {sps : List Byte} {m : Memory} (h : Pushed s sps m)
    (hwf : s.mem.wf = true) : m.wf = true := by
  induction h with
  | none => exact hwf
  | store _ _ _ ih => exact Memory.wf_store ih _ _
  | skip _ _ ih => exact ih

/-- An address that reads from none of the bytes the stack pointers address reads as before. -/
theorem Pushed.peek {s : State} {sps : List Byte} {m : Memory} (h : Pushed s sps m)
    (hwf : s.mem.wf = true) (b : Word)
    (hb : ∀ sp ∈ sps, ∀ k, s.writeSlot (stackAddress sp) = some (.byte k) →
      s.readSlot b ≠ some (.byte k)) : (s.setMem m).peek b = s.peek b := by
  induction h with
  | none => rfl
  | @store sps m sp k v h hk ih =>
    have hb' := ih fun sp' hs => hb sp' (by simp [hs])
    rw [← hb']
    refine State.peek_store (s := s.setMem m) (h.wf hwf) k v b ?_
    rw [State.readSlot_congr (t := s.setMem m) (s := s) h.same.1 h.same.2.1 h.same.2.2 rfl]
    exact hb sp (by simp) k hk
  | skip sp h ih => exact ih fun sp' hs => hb sp' (by simp [hs])

/-- One more push on a memory that earlier pushes left. -/
theorem Pushed.push8 {s u t : State} {sps : List Byte} {v : Byte} (h : Pushed s sps u.mem)
    (hc : u.config = s.config) (hp : s.mem.plain = true) (hu : push8 v u = .ok ((), t)) :
    ∃ m, t = (u.setMem m).setSp (u.sp - 1) ∧ Pushed s (sps ++ [u.sp]) m := by
  obtain ⟨m, rfl, hm⟩ := push8_plain (by rw [h.plain]; exact hp) hu
  refine ⟨m, rfl, ?_⟩
  rcases hm with ⟨k, hk, rfl⟩ | rfl
  · refine .store v h ?_
    rw [← State.writeSlot_congr (t := u) (s := s) h.same.1 h.same.2.1 h.same.2.2 hc]
    exact hk
  · exact .skip u.sp h

/-- Without device hooks a word push stores at most the two bytes SP and SP - 1 address. -/
theorem push16_plain {s t : State} {w : Word} (hp : s.mem.plain = true)
    (h : push16 w s = .ok ((), t)) :
    ∃ m, t = (s.setMem m).setSp (s.sp - 1 - 1) ∧ Pushed s [s.sp, s.sp - 1] m := by
  obtain ⟨_, u, h1, h2⟩ := Op.bind_ok_iff.1 h
  obtain ⟨m, rfl, hm⟩ := Pushed.push8 (s := s) (u := s) .none rfl hp h1
  obtain ⟨m', rfl, hm'⟩ := Pushed.push8 (u := (s.setMem m).setSp (s.sp - 1)) hm rfl hp h2
  exact ⟨m', rfl, by simpa using hm'⟩

/-- Without device hooks exception entry stores at most the bytes SP, SP - 1 and SP - 2 address, sets
I, and writes SP and PC (R276, R322). -/
theorem enterException_plain {s t : State} {returnPc vector : Word} {copy : Byte → Byte}
    (hp : s.mem.plain = true) (h : enterException returnPc copy vector s = .ok ((), t)) :
    ∃ m w, t = (((s.setMem m).setSp (s.sp - 1 - 1 - 1)).putFlag .i true).setPc w ∧
      Pushed s [s.sp, s.sp - 1, s.sp - 1 - 1] m := by
  simp only [enterException] at h
  obtain ⟨_, u, h1, h2⟩ := Op.bind_ok_iff.1 h
  obtain ⟨m, rfl, hm⟩ := push16_plain hp h1
  rw [Op.get_bind] at h2
  obtain ⟨_, u2, h3, h4⟩ := Op.bind_ok_iff.1 h2
  obtain ⟨m', rfl, hm'⟩ := Pushed.push8 (u := (s.setMem m).setSp (s.sp - 1 - 1)) hm rfl hp h3
  rw [Op.modify_bind] at h4
  obtain ⟨w, u3, h5, h6⟩ := Op.bind_ok_iff.1 h4
  obtain ⟨rfl, -⟩ := memReadWord_plain (by simpa [hm'.plain] using hp) h5
  simp at h6
  exact ⟨m', w, h6.symm, by simpa using hm'⟩

/-- Without device hooks a status pull moves SP and writes P (46_stack_subroutine_interrupt.md R273). -/
theorem pullStatus_plain {s t : State} (hp : s.mem.plain = true) (h : pullStatus s = .ok ((), t)) :
    ∃ b, t = (s.setSp (s.sp + 1)).setP (restoredStatus b s.p) := by
  obtain ⟨b, u, h1, h2⟩ := Op.bind_ok_iff.1 h
  obtain ⟨rfl, -⟩ := pull8_plain hp h1
  simp at h2
  exact ⟨b, h2.symm⟩

/-- Without device hooks exception return writes P, SP and PC (R277). -/
theorem returnFromException_plain {s t : State} (hp : s.mem.plain = true)
    (h : returnFromException s = .ok ((), t)) :
    ∃ b w, t = ((s.setSp (s.sp + 1 + 1 + 1)).setP (restoredStatus b s.p)).setPc w := by
  obtain ⟨_, u, h1, h2⟩ := Op.bind_ok_iff.1 h
  obtain ⟨b, rfl⟩ := pullStatus_plain hp h1
  obtain ⟨w, v, h3, h4⟩ := Op.bind_ok_iff.1 h2
  obtain rfl := pull16_plain (by simpa using hp) h3
  simp at h4
  exact ⟨b, w, h4.symm⟩

/-! ## What the stack operations keep -/

section
variable {R : State → State → Prop} (hR : Composable R) (read : ∀ a, Op.Keeps R (memRead a))
  (write : ∀ a v, Op.Keeps R (memWrite a v))
  (setSp : ∀ (s : State) (v : Byte), R s (s.setSp v))

include hR read setSp

/-- A pull. -/
theorem pull8_keeps : Op.Keeps R pull8 :=
  Op.Keeps.bind hR (Op.Keeps.modify fun s => setSp s _) fun _ =>
    Op.Keeps.bind hR (Op.Keeps.get hR) fun _ => read _

/-- A word pull. -/
theorem pull16_keeps : Op.Keeps R pull16 :=
  Op.Keeps.bind hR (pull8_keeps hR read setSp) fun _ =>
    Op.Keeps.bind hR (pull8_keeps hR read setSp) fun _ => Op.Keeps.pure hR _

include write

omit read in
/-- A push. -/
theorem push8_keeps (v : Byte) : Op.Keeps R (push8 v) :=
  Op.Keeps.bind hR (Op.Keeps.get hR) fun _ =>
    Op.Keeps.bind hR (write _ _) fun _ => Op.Keeps.modify fun s => setSp s _

omit read in
/-- A word push. -/
theorem push16_keeps (w : Word) : Op.Keeps R (push16 w) :=
  Op.Keeps.bind hR (push8_keeps hR write setSp _) fun _ => push8_keeps hR write setSp _

variable (setP : ∀ (s : State) (v : Byte), R s (s.setP v)) (setPc : ∀ (s : State) (v : Word), R s (s.setPc v))

include setP setPc

/-- Exception entry. -/
theorem enterException_keeps (returnPc : Word) (copy : Byte → Byte) (vector : Word) :
    Op.Keeps R (enterException returnPc copy vector) :=
  Op.Keeps.bind hR (push16_keeps hR write setSp _) fun _ =>
    Op.Keeps.bind hR (Op.Keeps.get hR) fun _ =>
      Op.Keeps.bind hR (push8_keeps hR write setSp _) fun _ =>
        Op.Keeps.bind hR (Op.Keeps.modify fun s => setP s _) fun _ =>
          Op.Keeps.bind hR (memReadWord_keeps hR read _) fun _ => Op.Keeps.modify fun s => setPc s _

end

end Sys2Proof.Machine
end

