-- ==== Sys2Proof/Laws/Commutes.lean ====
section
/-!
SUPPORT. What no instruction looks at: running an instruction, or any behavior of a table, in a state
whose stored Break and Unused bits (10_state.md R29, R30) or whose interrupt registry (R35) are others
gives the same result with those others in it.
-/

namespace Sys2Proof.Machine

/-- The state with other stored Break and Unused bits and another registry. -/
def State.disguise (m : Byte) (fi : List IrqSource → List IrqSource) (fn : List String → List String)
    (s : State) : State :=
  { s with p := s.p ^^^ (m &&& 0x30#8), irq := fi s.irq, nmi := fn s.nmi }

theorem State.flipReserved_eq_disguise (m : Byte) : State.flipReserved m = State.disguise m id id := rfl

theorem State.withRegistry_eq_disguise (irq : List IrqSource) (nmi : List String) :
    State.withRegistry irq nmi = State.disguise 0x00#8 (fun _ => irq) (fun _ => nmi) := by
  funext s
  simp [State.withRegistry, State.disguise]

/-- On the states of `D`, running from the changed state gives the same answer, changed alike, and the
operation stays in `D`. -/
def Op.CommutesOn {α : Type} (D : State → Prop) (g : State → State) (x : Op α) : Prop :=
  ∀ s, D s → x (g s) = mapAnswer g (x s) ∧ ∀ a t, x s = .ok (a, t) → D t

section
variable {α β : Type} {D : State → Prop} {g : State → State}

theorem Op.CommutesOn.pure (a : α) : Op.CommutesOn D g (pure a : Op α) :=
  fun s h => ⟨rfl, fun b t e => by simp at e; exact e.2 ▸ h⟩

theorem Op.CommutesOn.raise {f : State → Fault} (h : ∀ s, f (g s) = (f s).mapState g) :
    Op.CommutesOn D g (raise f : Op α) :=
  fun s _ => ⟨congrArg Except.error (h s), fun b t e => by simp at e⟩

theorem Op.CommutesOn.modify {f : State → State} (h : ∀ s, f (g s) = g (f s))
    (hD : ∀ s, D s → D (f s)) : Op.CommutesOn D g (modify f : Op Unit) := by
  intro s hs
  refine ⟨by simp [mapAnswer, h], fun b t e => ?_⟩
  simp at e
  exact e ▸ hD s hs

theorem Op.CommutesOn.bind {x : Op α} {f : α → Op β}
    (hx : Op.CommutesOn D g x) (hf : ∀ a, Op.CommutesOn D g (f a)) : Op.CommutesOn D g (x >>= f) := by
  intro s hs
  obtain ⟨h1, h2⟩ := hx s hs
  cases h : x s with
  | error e =>
    have hg : x (g s) = .error (e.mapState g) := by rw [h1, h]; rfl
    rw [Op.bind_of_error h, Op.bind_of_error hg]
    exact ⟨rfl, fun _ _ e => by cases e⟩
  | ok p =>
    obtain ⟨a, t⟩ := p
    have hg : x (g s) = .ok (a, g t) := by rw [h1, h]; rfl
    rw [Op.bind_of_ok h, Op.bind_of_ok hg]
    exact hf a t (h2 a t h)

/-- An operation that goes on with a part of the state that the change leaves. -/
theorem Op.CommutesOn.get {f : State → Op β} (h : ∀ s, f (g s) = f s)
    (hf : ∀ s, Op.CommutesOn D g (f s)) : Op.CommutesOn D g ((MonadState.get : Op State) >>= f) := by
  intro s hs
  rw [Op.get_bind, Op.get_bind, h]
  exact hf s s hs

end

/-! ## Status updates -/

/-- A status update that hands the stored Break and Unused bits through. -/
def Reserves (F : Byte → Byte) : Prop := ∀ m p : Byte, F (p ^^^ (m &&& 0x30#8)) = F p ^^^ (m &&& 0x30#8)

theorem getFlag_xor (f : Flag) (p q : Byte) : getFlag f (p ^^^ q) = (getFlag f p ^^ getFlag f q) := by
  simp [getFlag]

theorem getFlag_reserved {f : Flag} (hb : f ≠ .b) (hu : f ≠ .u) (m : Byte) :
    getFlag f (m &&& 0x30#8) = false := by
  cases f <;> simp at hb hu <;> simp [getFlag, Flag.bit]

theorem Reserves.putFlag {f : Flag} (hb : f ≠ .b) (hu : f ≠ .u) (v : Bool) : Reserves (putFlag f v) := by
  intro m p
  refine status_ext fun h => ?_
  by_cases e : h = f
  · subst e
    simp [getFlag_putFlag, getFlag_xor, getFlag_reserved hb hu]
  · simp [getFlag_putFlag, getFlag_xor, e]

theorem Reserves.comp {F G : Byte → Byte} (hF : Reserves F) (hG : Reserves G) :
    Reserves fun p => F (G p) := fun m p => by
  change F (G _) = F (G _) ^^^ _
  rw [hG, hF]

theorem Reserves.withZN (v : Byte) : Reserves (withZN v) :=
  (Reserves.putFlag (by decide) (by decide) _).comp (Reserves.putFlag (by decide) (by decide) _)

theorem Reserves.add (r : AddResult) : Reserves r.status :=
  (Reserves.putFlag (by decide) (by decide) _).comp <| (Reserves.putFlag (by decide) (by decide) _).comp <|
    (Reserves.putFlag (by decide) (by decide) _).comp (Reserves.putFlag (by decide) (by decide) _)

theorem Reserves.compare (r : CompareResult) : Reserves r.status :=
  (Reserves.putFlag (by decide) (by decide) _).comp <| (Reserves.putFlag (by decide) (by decide) _).comp
    (Reserves.putFlag (by decide) (by decide) _)

theorem Reserves.shift (r : ShiftResult) : Reserves r.status :=
  (Reserves.withZN _).comp (Reserves.putFlag (by decide) (by decide) _)

theorem Reserves.bitTest (a m : Byte) : Reserves (bitTest a m) :=
  (Reserves.putFlag (by decide) (by decide) _).comp <| (Reserves.putFlag (by decide) (by decide) _).comp
    (Reserves.putFlag (by decide) (by decide) _)

theorem Reserves.restored (b : Byte) : Reserves (restoredStatus b) := by
  intro m p
  refine status_ext fun h => ?_
  cases h <;> simp [getFlag, Flag.bit, restoredStatus]

/-- What BRK and PHP push does not tell the stored Break and Unused bits (log 22). -/
theorem pushedByInstruction_flip (m p : Byte) :
    pushedByInstruction (p ^^^ (m &&& 0x30#8)) = pushedByInstruction p := by
  refine status_ext fun h => ?_
  cases h <;> simp [getFlag, Flag.bit, pushedByInstruction]

/-- Nor does what interrupt service pushes. -/
theorem pushedByInterrupt_flip (m p : Byte) :
    pushedByInterrupt (p ^^^ (m &&& 0x30#8)) = pushedByInterrupt p := by
  refine status_ext fun h => ?_
  cases h <;> simp [getFlag, Flag.bit, pushedByInterrupt]

/-! ## Instructions -/

/-- What a change must allow: accesses commute with it, and `D` is a matter of the mappings. -/
structure Commuter (D : State → Prop) (m : Byte) (fi : List IrqSource → List IrqSource)
    (fn : List String → List String) : Prop where
  maps : ∀ s t : State, t.mem.maps = s.mem.maps → D s → D t
  read : ∀ a, Op.CommutesOn D (State.disguise m fi fn) (memRead a)
  write : ∀ a v, Op.CommutesOn D (State.disguise m fi fn) (memWrite a v)

section
variable {D : State → Prop} {m : Byte} {fi : List IrqSource → List IrqSource}
  {fn : List String → List String} (k : Commuter D m fi fn)

/-- The stored bits do not show in the other six flags. -/
theorem State.flag_disguise {f : Flag} (hb : f ≠ .b) (hu : f ≠ .u) (s : State) :
    (s.disguise m fi fn).flag f = s.flag f := by
  simp [State.flag, State.disguise, getFlag_xor, getFlag_reserved hb hu]

/-- A status update. -/
theorem State.setP_disguise {F : Byte → Byte} (hF : Reserves F) (s : State) :
    (s.disguise m fi fn).setP (F (s.disguise m fi fn).p) = (s.setP (F s.p)).disguise m fi fn := by
  simp only [State.setP, State.disguise]
  rw [hF]

theorem State.setZN_disguise (v : Byte) (s : State) :
    (s.disguise m fi fn).setZN v = (s.setZN v).disguise m fi fn := State.setP_disguise (.withZN v) s

theorem State.putFlag_disguise {f : Flag} (hb : f ≠ .b) (hu : f ≠ .u) (v : Bool) (s : State) :
    (s.disguise m fi fn).putFlag f v = (s.putFlag f v).disguise m fi fn :=
  State.setP_disguise (.putFlag hb hu v) s

/-- Shape (b): the byte's effect. -/
theorem byteEffect_disguise (n : Mnemonic) (v : Byte) (s : State) :
    byteEffect n v (s.disguise m fi fn) = (byteEffect n v s).disguise m fi fn := by
  have hc := State.flag_disguise (m := m) (fi := fi) (fn := fn) (f := .c) (by decide) (by decide) s
  cases n <;> simp only [byteEffect, hc] <;> first
    | rfl
    | exact State.setZN_disguise _ (s.setA _)
    | exact State.setZN_disguise _ (s.setX _)
    | exact State.setZN_disguise _ (s.setY _)
    | exact State.setP_disguise (.compare _) s
    | exact State.setP_disguise (.bitTest _ _) s
    | exact State.setP_disguise (.add _) (s.setA _)

/-- Shape (a): a register instruction. -/
theorem registerEffect_disguise (n : Mnemonic) (s : State) :
    registerEffect n (s.disguise m fi fn) = (registerEffect n s).disguise m fi fn := by
  cases n <;> simp only [registerEffect] <;> first
    | rfl
    | exact State.setZN_disguise _ (s.setA _)
    | exact State.setZN_disguise _ (s.setX _)
    | exact State.setZN_disguise _ (s.setY _)
    | exact State.putFlag_disguise (by decide) (by decide) _ s

/-- A branch. -/
theorem branch_disguise (n : Mnemonic) (nn : Byte) (s : State) :
    branch (branchCondition n (s.disguise m fi fn)) nn (s.disguise m fi fn) =
      (branch (branchCondition n s) nn s).disguise m fi fn := by
  have h : branchCondition n (s.disguise m fi fn) = branchCondition n s := by
    unfold branchCondition
    split <;> rw [State.flag_disguise (by decide) (by decide)]
  rw [h]
  cases branchCondition n s <;> rfl

/-- An accumulator shift. -/
theorem State.setShift_disguise (r : ShiftResult) (s : State) :
    ((s.disguise m fi fn).setA r.value).setP (r.status (s.disguise m fi fn).p) =
      ((s.setA r.value).setP (r.status s.p)).disguise m fi fn := State.setP_disguise (.shift _) (s.setA _)

include k

theorem Commuter.setMod {f : State → State}
    (h : ∀ s : State, f (s.disguise m fi fn) = (f s).disguise m fi fn) (hm : ∀ s, (f s).mem = s.mem) :
    Op.CommutesOn D (State.disguise m fi fn) (modify f : Op Unit) :=
  .modify h fun s hs => k.maps s _ (by rw [hm]) hs

theorem Commuter.readWord (a : Word) : Op.CommutesOn D (State.disguise m fi fn) (memReadWord a) :=
  (k.read _).bind fun _ => (k.read _).bind fun _ => .pure _

theorem Commuter.effectiveAddress (o : Address) :
    Op.CommutesOn D (State.disguise m fi fn) (effectiveAddress o) := by
  have zp : ∀ p, Op.CommutesOn D (State.disguise m fi fn) (readZeroPagePointer p) := by
    intro p
    refine .get (fun _ => rfl) fun s => ?_
    split
    · exact k.readWord _
    · exact (k.read _).bind fun _ => (k.read _).bind fun _ => .pure _
  have jp : ∀ w, Op.CommutesOn D (State.disguise m fi fn) (readJumpPointer w) := fun w =>
    (k.read _).bind fun _ => (k.read _).bind fun _ => .pure _
  cases o with
  | zeroPage nn => exact .pure _
  | zeroPageX nn => exact .get (fun _ => rfl) fun _ => .pure _
  | zeroPageY nn => exact .get (fun _ => rfl) fun _ => .pure _
  | absolute w => exact .pure _
  | absoluteX w => exact .get (fun _ => rfl) fun _ => .pure _
  | absoluteY w => exact .get (fun _ => rfl) fun _ => .pure _
  | indexedIndirectX nn => exact .get (fun _ => rfl) fun _ => (zp _).bind fun _ => .pure _
  | indirectIndexedY nn => exact (zp _).bind fun _ => .get (fun _ => rfl) fun _ => .pure _
  | indirect w => exact (jp _).bind fun _ => .pure _

theorem Commuter.locate (o : Address) : Op.CommutesOn D (State.disguise m fi fn) (locate o) :=
  (k.effectiveAddress o).bind fun r =>
    (k.setMod (f := fun s => s.setEvents { s.events with crossed := r.2 }) (fun _ => rfl)
      fun _ => rfl).bind fun _ => .pure r.1

theorem Commuter.loadOperand (o : Address) : Op.CommutesOn D (State.disguise m fi fn) (loadOperand o) :=
  (k.locate o).bind fun _ => k.read _

theorem Commuter.push8 (v : Byte) : Op.CommutesOn D (State.disguise m fi fn) (push8 v) :=
  .get (fun _ => rfl) fun _ => (k.write _ _).bind fun _ => k.setMod (fun _ => rfl) fun _ => rfl

theorem Commuter.pull8 : Op.CommutesOn D (State.disguise m fi fn) pull8 :=
  (k.setMod (f := fun s => s.setSp (s.sp + 1)) (fun _ => rfl) fun _ => rfl).bind fun _ =>
    .get (fun _ => rfl) fun _ => k.read _

theorem Commuter.push16 (w : Word) : Op.CommutesOn D (State.disguise m fi fn) (push16 w) :=
  (k.push8 _).bind fun _ => k.push8 _

theorem Commuter.pull16 : Op.CommutesOn D (State.disguise m fi fn) pull16 :=
  k.pull8.bind fun _ => k.pull8.bind fun _ => .pure _

theorem Commuter.enterException (returnPc : Word) {copy : Byte → Byte}
    (hc : ∀ q p : Byte, copy (p ^^^ (q &&& 0x30#8)) = copy p) (vector : Word) :
    Op.CommutesOn D (State.disguise m fi fn) (enterException returnPc copy vector) :=
  (k.push16 _).bind fun _ =>
    .get (fun s => by rw [show (s.disguise m fi fn).p = s.p ^^^ (m &&& 0x30#8) from rfl, hc]) fun _ =>
      (k.push8 _).bind fun _ =>
        (k.setMod (f := fun s => s.putFlag .i true)
          (fun s => State.putFlag_disguise (by decide) (by decide) _ s) fun _ => rfl).bind fun _ =>
            (k.readWord _).bind fun _ => k.setMod (fun _ => rfl) fun _ => rfl

theorem Commuter.pullStatus : Op.CommutesOn D (State.disguise m fi fn) pullStatus :=
  k.pull8.bind fun b => k.setMod (fun s => State.setP_disguise (.restored b) s) fun _ => rfl

theorem Commuter.impliedOp (n : Mnemonic) : Op.CommutesOn D (State.disguise m fi fn) (impliedOp n) := by
  unfold Machine.impliedOp
  split
  · exact .get (fun _ => rfl) fun _ => k.push8 _
  · exact k.pull8.bind fun v => k.setMod (fun s => State.setZN_disguise v (s.setA v)) fun _ => rfl
  · exact .get (fun s => by
      rw [show (s.disguise m fi fn).p = s.p ^^^ (m &&& 0x30#8) from rfl, pushedByInstruction_flip])
      fun _ => k.push8 _
  · exact k.pullStatus
  · exact k.pull16.bind fun _ => k.setMod (fun _ => rfl) fun _ => rfl
  · exact .get (fun _ => rfl) fun _ => k.enterException _ pushedByInstruction_flip _
  · exact k.pullStatus.bind fun _ => k.pull16.bind fun _ => k.setMod (fun _ => rfl) fun _ => rfl
  · refine k.setMod (fun s => registerEffect_disguise _ s) fun s => ?_
    unfold registerEffect
    split <;> rfl

theorem Commuter.addressOp (n : Mnemonic) (addr : Word) :
    Op.CommutesOn D (State.disguise m fi fn) (addressOp n addr) := by
  have modMem : ∀ f, Op.CommutesOn D (State.disguise m fi fn) (modifyMemory f addr) := fun f =>
    (k.read _).bind fun v => (k.write _ _).bind fun _ =>
      k.setMod (fun s => State.setZN_disguise (f v) s) fun _ => rfl
  unfold Machine.addressOp
  split
  · exact .get (fun _ => rfl) fun _ => k.write _ _
  · exact .get (fun _ => rfl) fun _ => k.write _ _
  · exact .get (fun _ => rfl) fun _ => k.write _ _
  · exact modMem _
  · exact modMem _
  · exact k.setMod (fun _ => rfl) fun _ => rfl
  · exact .get (fun _ => rfl) fun _ => (k.push16 _).bind fun _ => k.setMod (fun _ => rfl) fun _ => rfl
  · exact (k.read _).bind fun v =>
      .get (fun s => by rw [State.flag_disguise (by decide) (by decide)]) fun u =>
        (k.write _ _).bind fun _ =>
          k.setMod (f := fun s => s.setP ((shifter n v (u.flag .c)).status s.p))
            (fun s => State.setP_disguise (.shift _) s) fun _ => rfl

/-- A shape (b) operand. -/
theorem Commuter.valueOf {o : Operand} {value : Op Byte} (h : valueOf o = some value) :
    Op.CommutesOn D (State.disguise m fi fn) value := by
  cases o with
  | implied => cases h
  | accumulator => cases h
  | immediate nn => cases h; exact .pure _
  | relative nn => cases h; exact .pure _
  | memory a => cases h; exact k.loadOperand a

/-- A shape (c) operand. -/
theorem Commuter.addressOf {o : Operand} {address : Op Word} (h : addressOf o = some address) :
    Op.CommutesOn D (State.disguise m fi fn) address := by
  cases o with
  | memory a => cases h; exact k.locate a
  | _ => cases h

/-- Every behavior on every operand. -/
theorem Commuter.behavior {n : Mnemonic} {o : Operand} {op : Op Unit} (h : IsBehavior n o op) :
    Op.CommutesOn D (State.disguise m fi fn) op := by
  have hb : ∀ v (s : State), (Machine.byteEffect n v s).mem = s.mem := by
    intro v s
    unfold byteEffect
    split <;> rfl
  cases h with
  | bare _ _ _ _ =>
    refine Op.CommutesOn.bind ?_ fun _ => k.impliedOp _
    unfold resolveOnly
    split
    · exact .pure _
    · rename_i address ha
      exact (k.addressOf ha).bind fun _ => .pure _
  | value _ hv =>
    exact (k.valueOf hv).bind fun v => k.setMod (fun s => byteEffect_disguise _ v s) fun s => hb v s
  | branch _ hv =>
    refine (k.valueOf hv).bind fun nn => k.setMod (fun s => branch_disguise _ nn s) fun s => ?_
    cases branchCondition n s <;> rfl
  | accumulator _ _ =>
    refine .get (fun s => ?_) fun u =>
      k.setMod (f := fun s => (s.setA (shifter n u.a (u.flag .c)).value).setP
        ((shifter n u.a (u.flag .c)).status s.p)) (fun s => State.setShift_disguise _ s) fun _ => rfl
    rw [State.flag_disguise (by decide) (by decide)]
    rfl
  | address _ ha => exact (k.addressOf ha).bind fun a => k.addressOp _ a

/-- Every instruction, as `exec`. -/
theorem Commuter.exec (i : Instr) {s : State} (hs : D s) :
    exec i (s.disguise m fi fn) = mapResult (State.disguise m fi fn) (exec i s) := by
  rw [exec_eq_complete, exec_eq_complete]
  exact complete_map ((k.behavior (isBehavior_operation i)) s hs).1

/-- Any row's behavior. -/
theorem Commuter.perform (row : TableRow) (pc0 : Word) (o : Operand) {s : State} (hs : D s) :
    perform row pc0 o (s.disguise m fi fn) =
      mapResult (State.disguise m fi fn) (perform row pc0 o s) := by
  unfold Machine.perform
  split
  · rfl
  · split
    · exact k.exec _ hs
    · split
      · rename_i op h
        exact complete_map ((k.behavior (isBehavior_of_eq h)) s hs).1
      · rfl

end

/-- Without device hooks accesses do not show the registry. -/
theorem Commuter.plain (fi : List IrqSource → List IrqSource) (fn : List String → List String) :
    Commuter (fun s => s.mem.plain = true) 0x00#8 fi fn where
  maps s t h hs := by unfold Memory.plain at *; rw [h]; exact hs
  read a s hs := by
    have hr : (s.disguise 0x00#8 fi fn).readSlot a = s.readSlot a := rfl
    refine ⟨?_, fun _ t h => by obtain ⟨rfl, -⟩ := memRead_plain hs h; exact hs⟩
    simp only [memRead, readWith, Op.get_bind, hr]
    cases hk : s.readSlot a with
    | none => rfl
    | some slot =>
      cases slot with
      | byte j => rfl
      | device port =>
        unfold State.readSlot at hk
        split at hk
        · exact absurd hk (Memory.readSlot_not_device hs _ _)
        · cases hk
  write a v s hs := by
    have hw : (s.disguise 0x00#8 fi fn).writeSlot a = s.writeSlot a := rfl
    have hr : (s.disguise 0x00#8 fi fn).readSlot a = s.readSlot a := rfl
    have hc : (s.disguise 0x00#8 fi fn).config = s.config := rfl
    refine ⟨?_, fun _ t h => ?_⟩
    · cases hk : s.writeSlot a with
      | none =>
        simp only [memWrite, writeWith, Op.get_bind, hw, hk, hr, hc]
        split <;> rfl
      | some slot =>
        cases slot with
        | byte j => rw [memWrite_of_slot hk, memWrite_of_slot (hw.trans hk)]; rfl
        | device port =>
          unfold State.writeSlot at hk
          split at hk
          · exact absurd hk (Memory.writeSlot_not_device hs _ _)
          · cases hk
    · rcases memWrite_plain hs h with ⟨j, -, rfl⟩ | ⟨-, rfl⟩
      · exact hs
      · exact hs

/-! ## Hooks do not look at the stored Break and Unused bits (60_exceptions.md R343) -/

section
variable {D : State → Prop} (hD : ∀ s, D s) (m : Byte)
include hD

omit hD in
theorem checkConfiguration_flip (i : Nat) :
    Op.CommutesOn D (State.disguise m id id) (checkConfiguration i) :=
  .get (fun _ => rfl) fun s => by
    split
    · exact .pure _
    · exact .raise fun _ => rfl

omit hD in
theorem targetConfiguration_flip (config : Option Nat) :
    Op.CommutesOn D (State.disguise m id id) (targetConfiguration config) := by
  cases config with
  | none => exact .get (fun _ => rfl) fun _ => .pure _
  | some i => exact (checkConfiguration_flip m i).bind fun _ => .pure _

theorem installRange_flip (config : Option Nat) (base length : Nat) (rd wr : Option Backing) :
    Op.CommutesOn D (State.disguise m id id) (installRange config base length rd wr) := by
  refine (targetConfiguration_flip m config).bind fun c => .get (fun _ => rfl) fun s => ?_
  split
  · exact .modify (fun _ => rfl) fun _ _ => hD _
  · exact .raise fun _ => rfl

theorem writeWith_flip {device : Nat → Op Unit}
    (hd : ∀ port, Op.CommutesOn D (State.disguise m id id) (device port))
    (a : Word) (v : Byte) : Op.CommutesOn D (State.disguise m id id) (writeWith device a v) := by
  refine .get (fun _ => rfl) fun s => ?_
  split
  · exact .modify (fun _ => rfl) fun _ _ => hD _
  · exact hd _
  · split
    · exact .pure _
    · exact .raise fun _ => rfl

omit hD in
theorem readWith_flip {device : Nat → Op Byte}
    (hd : ∀ port, Op.CommutesOn D (State.disguise m id id) (device port)) (a : Word) :
    Op.CommutesOn D (State.disguise m id id) (readWith device a) := by
  refine .get (fun _ => rfl) fun s => ?_
  split
  · exact .pure _
  · exact hd _
  · exact .raise fun _ => rfl

theorem takeFreeByte_flip : Op.CommutesOn D (State.disguise m id id) takeFreeByte :=
  fun _ _ => ⟨rfl, fun _ _ _ => hD _⟩

theorem recordCall_flip (call : HookCall) : Op.CommutesOn D (State.disguise m id id) (recordCall call) :=
  .modify (fun _ => rfl) fun _ _ => hD _

/-- A host action. -/
theorem applyAction_flip (act : HostAction) :
    Op.CommutesOn D (State.disguise m id id) (applyAction act) := by
  cases act with
  | mapRam config base backing offset length =>
    simp only [applyAction, mapRam]
    split
    · exact installRange_flip hD m _ _ _ _ _
    · exact .raise fun _ => rfl
  | mapRom config base backing => exact installRange_flip hD m _ _ _ _ _
  | mapRegister config address cell mode => exact installRange_flip hD m _ _ _ _ _
  | mapDevice config base length port mode => exact installRange_flip hD m _ _ _ _ _
  | mapSegment config name origin size banks =>
    refine (targetConfiguration_flip m config).bind fun c => .get (fun _ => rfl) fun s => ?_
    split
    · exact .raise fun _ => rfl
    · split
      · exact .modify (fun _ => rfl) fun _ _ => hD _
      · exact .raise fun _ => rfl
  | selectBank id bank =>
    refine .get (fun _ => rfl) fun s => ?_
    split
    · exact .raise fun _ => rfl
    · split
      · exact .modify (fun _ => rfl) fun _ _ => hD _
      · exact .raise fun _ => rfl
  | setConfiguration index =>
    exact (checkConfiguration_flip m index).bind fun _ => .modify (fun _ => rfl) fun _ _ => hD _
  | setByte index value => exact .modify (fun _ => rfl) fun _ _ => hD _
  | memRead a =>
    exact (readWith_flip m (fun _ => (recordCall_flip hD m _).bind fun _ => takeFreeByte_flip hD m) a).bind
      fun _ => .modify (fun _ => rfl) fun _ _ => hD _
  | memWrite a v => exact writeWith_flip hD m (fun _ => recordCall_flip hD m _) a v
  | addIrqSource name autoAck => exact .modify (fun _ => rfl) fun _ _ => hD _
  | removeIrqSource name => exact .modify (fun _ => rfl) fun _ _ => hD _
  | addNmiSource name => exact .modify (fun _ => rfl) fun _ _ => hD _
  | removeNmiSource name => exact .modify (fun _ => rfl) fun _ _ => hD _

/-- A hook. -/
theorem invokeHook_flip (call : HookCall) : Op.CommutesOn D (State.disguise m id id) (invokeHook call) := by
  have acts : ∀ l, Op.CommutesOn D (State.disguise m id id) (applyActions l) := by
    intro l
    induction l with
    | nil => exact .pure _
    | cons act rest ih => exact (applyAction_flip hD m act).bind fun _ => ih
  have take : Op.CommutesOn D (State.disguise m id id) (takeReply call) := by
    intro s _
    refine ⟨?_, fun _ _ _ => hD _⟩
    unfold takeReply
    rw [show (s.disguise m id id).replies = s.replies from rfl]
    split <;> rfl
  exact (recordCall_flip hD m call).bind fun _ =>
    take.bind fun r => (acts _).bind fun _ => .pure _

/-- Observers. -/
theorem fireObservers_flip (call : HookCall) :
    ∀ n, Op.CommutesOn D (State.disguise m id id) (fireObservers call n)
  | 0 => .pure _
  | n + 1 => (invokeHook_flip hD m call).bind fun _ => fireObservers_flip call n

/-- Accesses, so every operation of an instruction. -/
theorem Commuter.flip : Commuter D m id id where
  maps _ _ _ _ := hD _
  read a := readWith_flip m (fun port => invokeHook_flip hD m (.read port a)) a
  write a v := writeWith_flip hD m (fun port => (invokeHook_flip hD m (.write port a v)).bind fun _ => .pure _) a v

end

end Sys2Proof.Machine
end

