-- ==== Sys2Proof/Laws/Keeps.lean ====
section
/-!
SUPPORT. Everything an instruction can do, once: what a behavior on an operand keeps, documented or
of a table's own pair, is what its reads, its writes, its note of a crossed page and the registers and
flags of its mnemonic keep.
-/

namespace Sys2Proof.Machine

/-- The flags a mnemonic may write (10_state.md R25 to R32). -/
def writtenFlags (m : Mnemonic) : List Flag :=
  match m with
  | .adc | .sbc => [.c, .z, .n, .v]
  | .cmp | .cpx | .cpy | .asl | .lsr | .rol | .ror => [.c, .z, .n]
  | .bit => [.z, .v, .n]
  | .clc | .sec => [.c]
  | .cli | .sei | .brk => [.i]
  | .cld | .sed => [.d]
  | .clv => [.v]
  | .plp | .rti => [.c, .z, .i, .d, .v, .n]
  | .lda | .ldx | .ldy | .and | .ora | .eor | .pla | .tax | .tay | .txa | .tya | .tsx
  | .inx | .iny | .dex | .dey | .inc | .dec => [.z, .n]
  | _ => []

/-- A relation between states that every part of a mnemonic's behavior on an operand keeps. -/
structure Keeper (R : State → State → Prop) (m : Mnemonic) (o : Operand) : Prop where
  composable : Composable R
  read : ∀ a, Op.Keeps R (memRead a)
  write : ∀ a v, Op.Keeps R (memWrite a v)
  events : ∀ (s : State) (e : StepEvents), R s (s.setEvents e)
  setA : (m ∈ [Mnemonic.lda, .adc, .sbc, .and, .ora, .eor, .pla, .txa, .tya] ∨
    isShift m = true ∧ o = .accumulator) → ∀ (s : State) (v : Byte), R s (s.setA v)
  setX : m ∈ [Mnemonic.ldx, .tax, .tsx, .inx, .dex] → ∀ (s : State) (v : Byte), R s (s.setX v)
  setY : m ∈ [Mnemonic.ldy, .tay, .iny, .dey] → ∀ (s : State) (v : Byte), R s (s.setY v)
  setSp : m ∈ [Mnemonic.txs, .pha, .php, .pla, .plp, .jsr, .rts, .brk, .rti] →
    ∀ (s : State) (v : Byte), R s (s.setSp v)
  setPc : (m ∈ [Mnemonic.jmp, .jsr, .rts, .rti, .brk] ∨ isBranch m = true) →
    ∀ (s : State) (v : Word), R s (s.setPc v)
  setP : ∀ (s : State) (q : Byte),
    (∀ f, f ∉ writtenFlags m → getFlag f q = getFlag f s.p) → R s (s.setP q)

variable {R : State → State → Prop} {m : Mnemonic} {o : Operand}

/-- Z and N of a byte, where the mnemonic writes them. -/
theorem Keeper.setZN (k : Keeper R m o) (h : Flag.z ∈ writtenFlags m ∧ Flag.n ∈ writtenFlags m)
    (s : State) (v : Byte) : R s (s.setZN v) := by
  refine k.setP s _ fun f hf => ?_
  have hz : f ≠ .z := fun e => hf (e ▸ h.1)
  have hn : f ≠ .n := fun e => hf (e ▸ h.2)
  simp [hz, hn]

/-- One flag. -/
theorem Keeper.putFlag (k : Keeper R m o) {g : Flag} (h : g ∈ writtenFlags m) (s : State)
    (b : Bool) : R s (s.putFlag g b) := by
  refine k.setP s _ fun f hf => ?_
  have hg : f ≠ g := fun e => hf (e ▸ h)
  simp [getFlag_putFlag, hg]

/-- Shape (b): the byte's effect. -/
theorem Keeper.byteEffect (k : Keeper R m o) (s : State) (v : Byte) : R s (byteEffect m v s) := by
  have hA := k.setA; have hX := k.setX; have hY := k.setY; have hP := k.setP; have hz := k.setZN
  have hR := k.composable
  have hn : ∀ {s t u : State}, R s t → R t u → R s u := hR.trans _ _ _
  clear k
  cases m <;> simp only [Machine.byteEffect] <;> first
    | exact hR.refl s
    | exact hn (hA (by simp) s _) (hz (by simp [writtenFlags]) _ _)
    | exact hn (hX (by simp) s _) (hz (by simp [writtenFlags]) _ _)
    | exact hn (hY (by simp) s _) (hz (by simp [writtenFlags]) _ _)
    | exact hP s _ (fun f hf => by simp [writtenFlags] at hf; simp [CompareResult.status, bitTest, hf])
    | exact hn (hA (by simp) s _) (hP _ _ fun f hf => by
        simp [writtenFlags] at hf; simp [AddResult.status, hf])

/-- Shape (a): a register instruction. -/
theorem Keeper.registerEffect (k : Keeper R m o) (s : State) : R s (registerEffect m s) := by
  have hA := k.setA; have hX := k.setX; have hY := k.setY; have hz := k.setZN; have hS := k.setSp
  have hf := fun {g} => k.putFlag (g := g)
  have hR := k.composable
  have hn : ∀ {s t u : State}, R s t → R t u → R s u := hR.trans _ _ _
  clear k
  cases m <;> simp only [Machine.registerEffect] <;> first
    | exact hR.refl s
    | exact hn (hA (by simp) s _) (hz (by simp [writtenFlags]) _ _)
    | exact hn (hX (by simp) s _) (hz (by simp [writtenFlags]) _ _)
    | exact hn (hY (by simp) s _) (hz (by simp [writtenFlags]) _ _)
    | exact hS (by simp) s _
    | exact hf (by simp [writtenFlags]) s _

/-- The status PLP and RTI load differs in the six other flags only. -/
theorem getFlag_restoredStatus {f : Flag} (h : f ∉ [Flag.c, .z, .i, .d, .v, .n]) (b p : Byte) :
    getFlag f (restoredStatus b p) = getFlag f p := by
  cases f <;> simp at h <;> simp [getFlag, Flag.bit, restoredStatus]

theorem Keeper.pullStatus (k : Keeper R m o) (h : m ∈ [Mnemonic.plp, .rti]) :
    Op.Keeps R pullStatus := by
  have hs := k.setSp; have hP := k.setP
  simp only [List.mem_cons, List.mem_nil_iff, or_false] at h
  refine Op.Keeps.bind k.composable (pull8_keeps k.composable k.read (hs ?_)) fun b =>
    Op.Keeps.modify fun s => hP s _ fun f hf => getFlag_restoredStatus ?_ _ _
  · rcases h with e | e <;> simp [e]
  · rcases h with e | e <;> simpa [e, writtenFlags] using hf

/-- The implied instructions. -/
theorem Keeper.impliedOp (k : Keeper R m o) : Op.Keeps R (impliedOp m) := by
  have hR := k.composable
  unfold Machine.impliedOp
  split
  · exact Op.Keeps.bind hR (Op.Keeps.get hR) fun _ => push8_keeps hR k.write (k.setSp (by simp)) _
  · refine Op.Keeps.bind hR (pull8_keeps hR k.read (k.setSp (by simp))) fun v => Op.Keeps.modify fun s =>
      hR.trans _ _ _ (k.setA (by simp) s v) (k.setZN (by simp [writtenFlags]) _ _)
  · exact Op.Keeps.bind hR (Op.Keeps.get hR) fun _ => push8_keeps hR k.write (k.setSp (by simp)) _
  · exact k.pullStatus (by simp)
  · exact Op.Keeps.bind hR (pull16_keeps hR k.read (k.setSp (by simp))) fun _ => Op.Keeps.modify fun s =>
      k.setPc (by simp) s _
  · have hS := k.setSp (by simp)
    have hpc := k.setPc (by simp)
    exact Op.Keeps.bind hR (Op.Keeps.get hR) fun _ =>
      Op.Keeps.bind hR (push16_keeps hR k.write hS _) fun _ =>
        Op.Keeps.bind hR (Op.Keeps.get hR) fun _ =>
          Op.Keeps.bind hR (push8_keeps hR k.write hS _) fun _ =>
            Op.Keeps.bind hR (Op.Keeps.modify fun s => k.putFlag (by simp [writtenFlags]) s _) fun _ =>
              Op.Keeps.bind hR (memReadWord_keeps hR k.read _) fun _ => Op.Keeps.modify fun s => hpc s _
  · exact Op.Keeps.bind hR (k.pullStatus (by simp)) fun _ =>
      Op.Keeps.bind hR (pull16_keeps hR k.read (k.setSp (by simp))) fun _ => Op.Keeps.modify fun s =>
        k.setPc (by simp) s _
  · exact Op.Keeps.modify fun s => k.registerEffect s

/-- The carry, Z and N of a shift, where the mnemonic writes them. -/
theorem Keeper.shiftStatus (k : Keeper R m o) (h : m ∈ [Mnemonic.asl, .lsr, .rol, .ror])
    (s : State) (r : ShiftResult) : R s (s.setP (r.status s.p)) := by
  refine k.setP s _ fun f hf => ?_
  simp only [List.mem_cons, List.mem_nil_iff, or_false] at h
  rcases h with e | e | e | e <;> simp [e, writtenFlags] at hf <;> simp [ShiftResult.status, hf]

/-- Shape (c): what happens at the resolved address. -/
theorem Keeper.addressOp (k : Keeper R m o) (hm : isShift m = true ∨ takesAddress m = true)
    (addr : Word) : Op.Keeps R (addressOp m addr) := by
  have hR := k.composable
  have hw := k.write
  have modMem : Flag.z ∈ writtenFlags m ∧ Flag.n ∈ writtenFlags m → ∀ f,
      Op.Keeps R (modifyMemory f addr) := fun h f =>
    Op.Keeps.bind hR (k.read _) fun _ => Op.Keeps.bind hR (hw _ _) fun _ =>
      Op.Keeps.modify fun s => k.setZN h s _
  unfold Machine.addressOp
  split
  · exact Op.Keeps.bind hR (Op.Keeps.get hR) fun _ => hw _ _
  · exact Op.Keeps.bind hR (Op.Keeps.get hR) fun _ => hw _ _
  · exact Op.Keeps.bind hR (Op.Keeps.get hR) fun _ => hw _ _
  · exact modMem (by simp [writtenFlags]) _
  · exact modMem (by simp [writtenFlags]) _
  · exact Op.Keeps.modify fun s => k.setPc (by simp) s _
  · exact Op.Keeps.bind hR (Op.Keeps.get hR) fun _ =>
      Op.Keeps.bind hR (push16_keeps hR k.write (k.setSp (by simp)) _) fun _ =>
        Op.Keeps.modify fun s => k.setPc (by simp) s _
  · have hs : m ∈ [Mnemonic.asl, .lsr, .rol, .ror] := by
      rcases hm with h | h
      · simpa [isShift] using h
      · clear k hR hw modMem
        cases m <;> simp_all [takesAddress]
    exact Op.Keeps.bind hR (k.read _) fun _ => Op.Keeps.bind hR (Op.Keeps.get hR) fun _ =>
      Op.Keeps.bind hR (hw _ _) fun _ => Op.Keeps.modify fun s => k.shiftStatus hs s _

/-- What a shape (b) operand keeps. -/
theorem Keeper.valueOf (k : Keeper R m o) {value : Op Byte} (h : valueOf o = some value) :
    Op.Keeps R value := by
  cases o with
  | implied => cases h
  | accumulator => cases h
  | immediate nn => cases h; exact Op.Keeps.pure k.composable _
  | relative nn => cases h; exact Op.Keeps.pure k.composable _
  | memory a => cases h; exact loadOperand_keeps k.composable k.read k.events a

/-- What a shape (c) operand keeps. -/
theorem Keeper.addressOf (k : Keeper R m o) {address : Op Word} (h : addressOf o = some address) :
    Op.Keeps R address := by
  cases o with
  | memory a => cases h; exact locate_keeps k.composable k.read k.events a
  | _ => cases h

/-- Every behavior on every operand keeps what its parts keep. -/
theorem Keeper.behavior (k : Keeper R m o) {op : Op Unit} (h : IsBehavior m o op) : Op.Keeps R op := by
  have hR := k.composable
  cases h with
  | bare _ _ _ _ =>
    refine Op.Keeps.bind hR ?_ fun _ => k.impliedOp
    unfold resolveOnly
    split
    · exact Op.Keeps.pure hR _
    · rename_i address ha
      exact Op.Keeps.bind hR (k.addressOf ha) fun _ => Op.Keeps.pure hR _
  | value _ hv => exact Op.Keeps.bind hR (k.valueOf hv) fun v => Op.Keeps.modify fun s => k.byteEffect s v
  | branch hb hv =>
    refine Op.Keeps.bind hR (k.valueOf hv) fun nn => Op.Keeps.modify fun s => ?_
    have hpc := k.setPc (.inr hb)
    cases branchCondition m s with
    | false => exact hR.refl s
    | true => exact hR.trans _ _ _ (k.events s _) (hpc _ _)
  | accumulator hs ho =>
    refine Op.Keeps.bind hR (Op.Keeps.get hR) fun u => Op.Keeps.modify fun s => ?_
    exact hR.trans _ _ _ (k.setA (.inr ⟨hs, ho⟩) s _) (k.shiftStatus (by simpa [isShift] using hs) (s.setA _) _)
  | address hm ha => exact Op.Keeps.bind hR (k.addressOf ha) fun a => k.addressOp hm a

/-- Every instruction keeps what its parts keep. -/
theorem Keeper.operation {i : Instr} (k : Keeper R i.mnemonic i.operand) : Op.Keeps R (operation i) :=
  k.behavior (isBehavior_operation i)

/-- A next state of a dispatched row, whatever the table registers (30_encoding.md R94). -/
theorem perform_keeps {row : TableRow} {pc0 : Word} (k : ∀ m, Keeper R m o) {s t : State}
    (h : perform row pc0 o s = .next t) : R s t := by
  unfold perform at h
  split at h
  · cases h
  · split at h
    · rename_i hi
      obtain ⟨rfl, rfl⟩ := parts_of_ofParts hi
      exact (k _).operation s () t (exec_eq_next.1 h)
    · split at h
      · rename_i hb
        exact (k _).behavior (isBehavior_of_eq hb) s () t (complete_eq_next.1 h)
      · cases h

end Sys2Proof.Machine
end

