-- ==== Sys2Proof/Laws/Loop.lean ====
section
/-!
SUPPORT. The items the run loop puts around an instruction (60_exceptions.md R330), on quiet states, and
the fetch of one byte (40_step_addressing_flags.md R121).
-/

namespace Sys2Proof.Machine

/-- A poll of a quiet state changes nothing (R320). -/
theorem poll_quiet {s : State} (h : s.NoInterrupt) : poll s = .ok ((), s) := by
  obtain ⟨h1, h2⟩ := h
  have hn : s.nmiLine = false := by simp [State.nmiLine, h1]
  have hi : (s.irqLine && !s.flag .i) = false := by
    rcases h2 with h2 | h2 <;> simp [State.irqLine, h2]
  simp only [poll, Op.get_bind, hn, hi, Bool.false_eq_true, if_false]
  rfl

/-- At either place of the iteration. -/
theorem pollAt_quiet {s : State} (h : s.NoInterrupt) (place : PollPoint) :
    pollAt place s = .ok ((), s) := by
  simp only [pollAt, Op.get_bind]
  split
  · exact poll_quiet h
  · rfl

/-- The poll does not look at what the fold writes. -/
theorem State.NoInterrupt.fold {s : State} (h : s.NoInterrupt) (pc0 : Word) (r : StepResult) :
    (foldResult pc0 r s).NoInterrupt := h

/-- The fetch of a byte that can be peeked (R121). -/
theorem fetchByte_of_peek {s : State} {b : Byte} (h : s.peek s.pc = some b) :
    fetchByte s = .ok (b, s.setPc (s.pc + 1)) := by
  simp only [fetchByte, Op.get_bind]
  rw [Op.bind_of_ok (memRead_of_peek h)]
  rfl

/-! ## What the fetch keeps -/

section
variable {R : State → State → Prop} (hR : Composable R) (read : ∀ a, Op.Keeps R (memRead a))
  (setPc : ∀ (s : State) (v : Word), R s (s.setPc v))
include hR read setPc

/-- A fetched byte. -/
theorem fetchByte_keeps : Op.Keeps R fetchByte :=
  Op.Keeps.bind hR (Op.Keeps.get hR) fun _ => Op.Keeps.bind hR (read _) fun b =>
    Op.Keeps.bind hR (Op.Keeps.modify fun s => setPc s _) fun _ => Op.Keeps.pure hR b

/-- The operand bytes of a mode. -/
theorem fetchOperand_keeps (mode : Mode) : Op.Keeps R (fetchOperand mode) := by
  have hf := fetchByte_keeps hR read setPc
  have one : ∀ f, Op.Keeps R (fetchWith f) := fun _ => Op.Keeps.bind hR hf fun _ => Op.Keeps.pure hR _
  have two : ∀ f, Op.Keeps R (fetchWordWith f) := fun _ =>
    Op.Keeps.bind hR hf fun _ => Op.Keeps.bind hR hf fun _ => Op.Keeps.pure hR _
  cases mode <;> simp only [fetchOperand] <;> first
    | exact Op.Keeps.pure hR _
    | exact one _
    | exact two _

/-- A fetched instruction. -/
theorem fetchInstruction_keeps : Op.Keeps R fetchInstruction :=
  Op.Keeps.bind hR (fetchByte_keeps hR read setPc) fun op => Op.Keeps.bind hR (Op.Keeps.get hR) fun s => by
    split
    · exact Op.Keeps.pure hR _
    · exact Op.Keeps.bind hR (fetchOperand_keeps hR read setPc _) fun _ => Op.Keeps.pure hR _

end

/-! ## What the fetch finds -/

/-- The first of several bytes, and those behind it. -/
theorem State.BytesAt.cons {s : State} {a : Word} {b : Byte} {bytes : List Byte}
    (h : s.BytesAt a (b :: bytes)) : s.peek a = some b ∧ s.BytesAt (a + 1) bytes := by
  refine ⟨by simpa using h 0 (by simp), fun k hk => ?_⟩
  have := h (k + 1) (by simpa using hk)
  rw [BitVec.ofNat_add, BitVec.add_comm (BitVec.ofNat 16 k), ← BitVec.add_assoc] at this
  simpa using this

theorem State.BytesAt.setPc {s : State} {a pc : Word} {bytes : List Byte} (h : s.BytesAt a bytes) :
    (s.setPc pc).BytesAt a bytes := fun k hk => by simpa using h k hk

/-- The operand bytes at PC are fetched, and PC is past them (R125 to R138). -/
theorem fetchOperand_of_bytes {s : State} {o : Operand} (h : s.BytesAt s.pc o.bytes) :
    fetchOperand o.mode s = .ok (o, s.setPc (s.pc + BitVec.ofNat 16 o.bytes.length)) := by
  have one : ∀ (f : Byte → Operand) (nn : Byte), s.BytesAt s.pc [nn] →
      fetchWith f s = .ok (f nn, s.setPc (s.pc + BitVec.ofNat 16 1)) := by
    intro f nn h
    simp only [fetchWith]
    rw [Op.bind_of_ok (fetchByte_of_peek h.cons.1)]
    rfl
  have two : ∀ (f : Word → Operand) (w : Word), s.BytesAt s.pc [lowByte w, highByte w] →
      fetchWordWith f s = .ok (f w, s.setPc (s.pc + BitVec.ofNat 16 2)) := by
    intro f w h
    simp only [fetchWordWith]
    rw [Op.bind_of_ok (fetchByte_of_peek h.cons.1),
      Op.bind_of_ok (fetchByte_of_peek (s := s.setPc (s.pc + 1)) (by simpa using h.cons.2.cons.1))]
    simp only [Op.pure_apply, wordOf_high_low, State.setPc_pc, BitVec.add_assoc]
    rfl
  cases o with
  | implied => simp [fetchOperand, Operand.mode, Operand.bytes, State.setPc]
  | accumulator => simp [fetchOperand, Operand.mode, Operand.bytes, State.setPc]
  | immediate nn => exact one .immediate _ h
  | relative nn => exact one .relative _ h
  | memory m =>
    cases m <;> simp only [fetchOperand, Operand.mode] <;> first
      | exact one _ _ h
      | exact two _ _ h

/-- The instruction at PC, by the row of its opcode byte (R120). -/
theorem fetchInstruction_of_bytes {s : State} {op : Byte} {o : Operand} {row : TableRow}
    (h : s.BytesAt s.pc (op :: o.bytes)) (hr : findRow s.config.table op = some row)
    (hm : row.mode = o.mode) : fetchInstruction s =
      .ok (.known row o, s.setPc (s.pc + BitVec.ofNat 16 (o.bytes.length + 1))) := by
  have hb : (s.setPc (s.pc + 1)).BytesAt (s.setPc (s.pc + 1)).pc o.bytes := h.cons.2.setPc
  simp only [fetchInstruction]
  rw [Op.bind_of_ok (fetchByte_of_peek h.cons.1), Op.get_bind]
  simp only [State.setPc_config, hr]
  rw [hm, Op.bind_of_ok (fetchOperand_of_bytes hb)]
  simp only [Op.pure_apply, State.setPc_pc, BitVec.ofNat_add, BitVec.add_assoc]
  rw [BitVec.add_comm (1 : Word)]
  rfl

end Sys2Proof.Machine
end

