-- ==== Sys2Proof/Laws/Mapping.lean ====
section
/-!
SUPPORT. What the mapping operations of Machine/Memory.lean do, once: installing a range on the current
configuration (20_memory.md R56 to R58), what the hooks of an address are afterwards, switching the
configuration (R60).
-/

namespace Sys2Proof.Machine

/-- A configuration index in range passes the check (R60). -/
theorem checkConfiguration_ok {s : State} {index : Nat} (h : index < s.config.numConfigs) :
    checkConfiguration index s = .ok ((), s) := by
  simp [checkConfiguration, h]

/-- A configuration index out of range is a configuration error (R60). -/
theorem checkConfiguration_error {s : State} {index : Nat} (h : s.config.numConfigs ≤ index) :
    checkConfiguration index s = .error (.configuration .invalidMemoryConfiguration s) := by
  simp [checkConfiguration, Nat.not_lt.2 h]

/-- The target configuration of a map operation (D23): the current one, or an index in range. -/
theorem targetConfiguration_eq {s t : State} {config : Option Nat} {c : Nat}
    (h : targetConfiguration config s = .ok (c, t)) :
    t = s ∧ (config = none ∧ c = s.mem.cfg ∨ config = some c ∧ c < s.config.numConfigs) := by
  cases config with
  | none => simp [targetConfiguration] at h; exact ⟨h.2.symm, .inl ⟨rfl, h.1.symm⟩⟩
  | some i =>
    simp only [targetConfiguration] at h
    by_cases hi : i < s.config.numConfigs
    · rw [Op.bind_of_ok (checkConfiguration_ok hi)] at h
      simp at h
      exact ⟨h.2.symm, .inr ⟨by rw [h.1], h.1 ▸ hi⟩⟩
    · rw [Op.bind_of_error (checkConfiguration_error (Nat.not_lt.1 hi))] at h
      cases h

/-- An index in range is the target (D23). -/
theorem targetConfiguration_some {s : State} {c : Nat} (h : c < s.config.numConfigs) :
    targetConfiguration (some c) s = .ok (c, s) := by
  simp only [targetConfiguration]
  rw [Op.bind_of_ok (checkConfiguration_ok h)]
  rfl

/-- An index out of range is refused (R60). -/
theorem targetConfiguration_error {s : State} {c : Nat} (h : s.config.numConfigs ≤ c) :
    targetConfiguration (some c) s = .error (.configuration .invalidMemoryConfiguration s) := by
  simp only [targetConfiguration]
  rw [Op.bind_of_error (checkConfiguration_error h)]

/-- Installing on the target configuration, or beyond MEM_SIZE (R56). -/
theorem installRange_of_target {s : State} {config : Option Nat} {c base length : Nat}
    {rd wr : Option Backing} (h : targetConfiguration config s = .ok (c, s)) :
    installRange config base length rd wr s =
      if base + length ≤ s.config.memSize then
        .ok ((), s.setMem (s.mem.install ⟨c, base, length, rd, wr⟩))
      else .error (.configuration .mappingBeyondMemory s) := by
  simp only [installRange]
  rw [Op.bind_of_ok h, Op.get_bind]
  split <;> rfl

/-- On a configuration that does not exist (R60). -/
theorem installRange_error {s : State} {c base length : Nat} {rd wr : Option Backing}
    (h : s.config.numConfigs ≤ c) :
    installRange (some c) base length rd wr s =
      .error (.configuration .invalidMemoryConfiguration s) := by
  simp only [installRange]
  rw [Op.bind_of_error (targetConfiguration_error h)]

/-- A segment on the target configuration (R62). -/
theorem mapSegment_of_target {s : State} {config : Option Nat} {c origin size : Nat} {name : String}
    {banks : List Nat} (h : targetConfiguration config s = .ok (c, s)) :
    mapSegment config name origin size banks s =
      if banks.isEmpty then .error (.configuration .bankOutOfRange s)
      else if origin + size ≤ s.config.memSize then
        .ok ((), s.setMem (s.mem.addSegment c ⟨name, origin, size, banks, 0⟩))
      else .error (.configuration .mappingBeyondMemory s) := by
  simp only [mapSegment]
  rw [Op.bind_of_ok h, Op.get_bind]
  split
  · rfl
  · split <;> rfl

/-- What an installation that answers did: one mapping in range, on top of the others. -/
theorem installRange_eq {s t : State} {config : Option Nat} {base length : Nat}
    {rd wr : Option Backing} (h : installRange config base length rd wr s = .ok ((), t)) :
    ∃ c, (config = none ∧ c = s.mem.cfg ∨ config = some c ∧ c < s.config.numConfigs) ∧
      base + length ≤ s.config.memSize ∧
      t = s.setMem (s.mem.install ⟨c, base, length, rd, wr⟩) := by
  simp only [installRange] at h
  obtain ⟨c, u, ht, hrest⟩ := Op.bind_ok_iff.1 h
  obtain ⟨rfl, hc⟩ := targetConfiguration_eq ht
  refine ⟨c, hc, ?_⟩
  simp only [Op.get_bind] at hrest
  split at hrest
  · rename_i hle
    exact ⟨hle, by simpa using hrest.symm⟩
  · simp at hrest

/-- Installing on the current configuration, in range. -/
theorem installRange_current {s : State} {base length : Nat} {rd wr : Option Backing}
    (h : base + length ≤ s.config.memSize) :
    installRange none base length rd wr s =
      .ok ((), s.setMem (s.mem.install ⟨s.mem.cfg, base, length, rd, wr⟩)) := by
  rw [installRange_of_target rfl, if_pos h]

/-- Beyond MEM_SIZE (R56). -/
theorem installRange_beyond {s : State} {base length : Nat} {rd wr : Option Backing}
    (h : s.config.memSize < base + length) :
    installRange none base length rd wr s = .error (.configuration .mappingBeyondMemory s) := by
  rw [installRange_of_target rfl, if_neg (by omega)]

/-- What a backing gives does not depend on the mappings. -/
theorem Backing.slot_install (m : Memory) (r : Mapping) (off : Nat) (b : Backing) :
    Backing.slot (m.install r) off b = Backing.slot m off b := by
  cases b <;> rfl

/-- The read-hook of an address after an installation on the current configuration. -/
theorem Memory.readSlot_install (m : Memory) (r : Mapping) (a : Nat) (hc : r.config = m.cfg) :
    (m.install r).readSlot a =
      if r.base ≤ a ∧ a < r.base + r.length ∧ r.rd.isSome = true then
        r.rd.bind (Backing.slot m (a - r.base))
      else m.readSlot a := by
  by_cases h : r.base ≤ a ∧ a < r.base + r.length ∧ r.rd.isSome = true
  · obtain ⟨h1, h2, h3⟩ := h
    simp [Memory.readSlot, Memory.install, Mapping.covers, hc, h1, h2, h3]
    congr 1
  · have hf : (r.covers m.cfg a && r.rd.isSome) = false := by
      simp [Mapping.covers, hc] at *
      intro h1 h2; exact h h1 h2
    rw [if_neg h]
    simp [Memory.readSlot, Memory.install, hf]
    split <;> rfl

/-- Nothing changes on the current configuration when another is the target. -/
theorem Memory.slots_install_other (m : Memory) (r : Mapping) (a : Nat) (hc : r.config ≠ m.cfg) :
    (m.install r).readSlot a = m.readSlot a ∧ (m.install r).writeSlot a = m.writeSlot a := by
  have hf : r.covers m.cfg a = false := by simp [Mapping.covers, hc]
  refine ⟨?_, ?_⟩
  · simp [Memory.readSlot, Memory.install, hf]
    split <;> rfl
  · simp [Memory.writeSlot, Memory.install, hf]
    split <;> rfl

/-- The write-hook of an address after an installation on the current configuration. -/
theorem Memory.writeSlot_install (m : Memory) (r : Mapping) (a : Nat) (hc : r.config = m.cfg) :
    (m.install r).writeSlot a =
      if r.base ≤ a ∧ a < r.base + r.length ∧ r.wr.isSome = true then
        r.wr.bind (Backing.slot m (a - r.base))
      else m.writeSlot a := by
  by_cases h : r.base ≤ a ∧ a < r.base + r.length ∧ r.wr.isSome = true
  · obtain ⟨h1, h2, h3⟩ := h
    simp [Memory.writeSlot, Memory.install, Mapping.covers, hc, h1, h2, h3]
    congr 1
  · have hf : (r.covers m.cfg a && r.wr.isSome) = false := by
      simp [Mapping.covers, hc] at *
      intro h1 h2; exact h h1 h2
    rw [if_neg h]
    simp [Memory.writeSlot, Memory.install, hf]
    split <;> rfl

end Sys2Proof.Machine
end

