-- ==== Sys2Proof/Laws/PerInstr.lean ====
section
/-!
SUPPORT. One lemma per instruction: the opcode map of 30_encoding.md R95 has the instruction's opcode
byte, with the format that spells the instruction.
-/

namespace Sys2Proof.Laws.Encoding

/-- The template's format (R91), filled with operand bytes, is the instruction. -/
def Spells (i : Instr) : Template → Prop
  | .one j => i = j ∧ i.operandBytes = []
  | .two mk => ∃ nn, i = mk nn ∧ i.operandBytes = [nn]
  | .three mk => ∃ w, i = mk w ∧ i.operandBytes = [lowByte w, highByte w]

/-- The decoder finds the instruction's opcode byte with a template that spells the instruction. -/
def Statement (i : Instr) : Prop := ∃ t, template i.opcode = some t ∧ Spells i t

/-- From the map's entry. -/
theorem statement_of_template {i : Instr} (op : Byte) (t : Template) (ho : i.opcode = op)
    (h : template op = some t) (hs : Spells i t) : Statement i := by
  subst ho
  exact ⟨t, h, hs⟩

theorem tax : Statement .tax :=
  statement_of_template 0xAA#8 (.one .tax) rfl rfl ⟨rfl, rfl⟩

theorem tay : Statement .tay :=
  statement_of_template 0xA8#8 (.one .tay) rfl rfl ⟨rfl, rfl⟩

theorem txa : Statement .txa :=
  statement_of_template 0x8A#8 (.one .txa) rfl rfl ⟨rfl, rfl⟩

theorem tya : Statement .tya :=
  statement_of_template 0x98#8 (.one .tya) rfl rfl ⟨rfl, rfl⟩

theorem tsx : Statement .tsx :=
  statement_of_template 0xBA#8 (.one .tsx) rfl rfl ⟨rfl, rfl⟩

theorem txs : Statement .txs :=
  statement_of_template 0x9A#8 (.one .txs) rfl rfl ⟨rfl, rfl⟩

theorem inx : Statement .inx :=
  statement_of_template 0xE8#8 (.one .inx) rfl rfl ⟨rfl, rfl⟩

theorem iny : Statement .iny :=
  statement_of_template 0xC8#8 (.one .iny) rfl rfl ⟨rfl, rfl⟩

theorem dex : Statement .dex :=
  statement_of_template 0xCA#8 (.one .dex) rfl rfl ⟨rfl, rfl⟩

theorem dey : Statement .dey :=
  statement_of_template 0x88#8 (.one .dey) rfl rfl ⟨rfl, rfl⟩

theorem clc : Statement .clc :=
  statement_of_template 0x18#8 (.one .clc) rfl rfl ⟨rfl, rfl⟩

theorem sec : Statement .sec :=
  statement_of_template 0x38#8 (.one .sec) rfl rfl ⟨rfl, rfl⟩

theorem cli : Statement .cli :=
  statement_of_template 0x58#8 (.one .cli) rfl rfl ⟨rfl, rfl⟩

theorem sei : Statement .sei :=
  statement_of_template 0x78#8 (.one .sei) rfl rfl ⟨rfl, rfl⟩

theorem cld : Statement .cld :=
  statement_of_template 0xD8#8 (.one .cld) rfl rfl ⟨rfl, rfl⟩

theorem sed : Statement .sed :=
  statement_of_template 0xF8#8 (.one .sed) rfl rfl ⟨rfl, rfl⟩

theorem clv : Statement .clv :=
  statement_of_template 0xB8#8 (.one .clv) rfl rfl ⟨rfl, rfl⟩

theorem nop : Statement .nop :=
  statement_of_template 0xEA#8 (.one .nop) rfl rfl ⟨rfl, rfl⟩

theorem ldaImm (nn : Byte) : Statement (.ldaImm nn) :=
  statement_of_template 0xA9#8 (.two .ldaImm) rfl rfl ⟨nn, rfl, rfl⟩

theorem ldaZp (nn : Byte) : Statement (.ldaZp nn) :=
  statement_of_template 0xA5#8 (.two .ldaZp) rfl rfl ⟨nn, rfl, rfl⟩

theorem ldaZpX (nn : Byte) : Statement (.ldaZpX nn) :=
  statement_of_template 0xB5#8 (.two .ldaZpX) rfl rfl ⟨nn, rfl, rfl⟩

theorem ldaAbs (w : Word) : Statement (.ldaAbs w) :=
  statement_of_template 0xAD#8 (.three .ldaAbs) rfl rfl ⟨w, rfl, rfl⟩

theorem ldaAbsX (w : Word) : Statement (.ldaAbsX w) :=
  statement_of_template 0xBD#8 (.three .ldaAbsX) rfl rfl ⟨w, rfl, rfl⟩

theorem ldaAbsY (w : Word) : Statement (.ldaAbsY w) :=
  statement_of_template 0xB9#8 (.three .ldaAbsY) rfl rfl ⟨w, rfl, rfl⟩

theorem ldaIzX (nn : Byte) : Statement (.ldaIzX nn) :=
  statement_of_template 0xA1#8 (.two .ldaIzX) rfl rfl ⟨nn, rfl, rfl⟩

theorem ldaIzY (nn : Byte) : Statement (.ldaIzY nn) :=
  statement_of_template 0xB1#8 (.two .ldaIzY) rfl rfl ⟨nn, rfl, rfl⟩

theorem ldxImm (nn : Byte) : Statement (.ldxImm nn) :=
  statement_of_template 0xA2#8 (.two .ldxImm) rfl rfl ⟨nn, rfl, rfl⟩

theorem ldxZp (nn : Byte) : Statement (.ldxZp nn) :=
  statement_of_template 0xA6#8 (.two .ldxZp) rfl rfl ⟨nn, rfl, rfl⟩

theorem ldxZpY (nn : Byte) : Statement (.ldxZpY nn) :=
  statement_of_template 0xB6#8 (.two .ldxZpY) rfl rfl ⟨nn, rfl, rfl⟩

theorem ldxAbs (w : Word) : Statement (.ldxAbs w) :=
  statement_of_template 0xAE#8 (.three .ldxAbs) rfl rfl ⟨w, rfl, rfl⟩

theorem ldxAbsY (w : Word) : Statement (.ldxAbsY w) :=
  statement_of_template 0xBE#8 (.three .ldxAbsY) rfl rfl ⟨w, rfl, rfl⟩

theorem ldyImm (nn : Byte) : Statement (.ldyImm nn) :=
  statement_of_template 0xA0#8 (.two .ldyImm) rfl rfl ⟨nn, rfl, rfl⟩

theorem ldyZp (nn : Byte) : Statement (.ldyZp nn) :=
  statement_of_template 0xA4#8 (.two .ldyZp) rfl rfl ⟨nn, rfl, rfl⟩

theorem ldyZpX (nn : Byte) : Statement (.ldyZpX nn) :=
  statement_of_template 0xB4#8 (.two .ldyZpX) rfl rfl ⟨nn, rfl, rfl⟩

theorem ldyAbs (w : Word) : Statement (.ldyAbs w) :=
  statement_of_template 0xAC#8 (.three .ldyAbs) rfl rfl ⟨w, rfl, rfl⟩

theorem ldyAbsX (w : Word) : Statement (.ldyAbsX w) :=
  statement_of_template 0xBC#8 (.three .ldyAbsX) rfl rfl ⟨w, rfl, rfl⟩

theorem adcImm (nn : Byte) : Statement (.adcImm nn) :=
  statement_of_template 0x69#8 (.two .adcImm) rfl rfl ⟨nn, rfl, rfl⟩

theorem adcZp (nn : Byte) : Statement (.adcZp nn) :=
  statement_of_template 0x65#8 (.two .adcZp) rfl rfl ⟨nn, rfl, rfl⟩

theorem adcZpX (nn : Byte) : Statement (.adcZpX nn) :=
  statement_of_template 0x75#8 (.two .adcZpX) rfl rfl ⟨nn, rfl, rfl⟩

theorem adcAbs (w : Word) : Statement (.adcAbs w) :=
  statement_of_template 0x6D#8 (.three .adcAbs) rfl rfl ⟨w, rfl, rfl⟩

theorem adcAbsX (w : Word) : Statement (.adcAbsX w) :=
  statement_of_template 0x7D#8 (.three .adcAbsX) rfl rfl ⟨w, rfl, rfl⟩

theorem adcAbsY (w : Word) : Statement (.adcAbsY w) :=
  statement_of_template 0x79#8 (.three .adcAbsY) rfl rfl ⟨w, rfl, rfl⟩

theorem adcIzX (nn : Byte) : Statement (.adcIzX nn) :=
  statement_of_template 0x61#8 (.two .adcIzX) rfl rfl ⟨nn, rfl, rfl⟩

theorem adcIzY (nn : Byte) : Statement (.adcIzY nn) :=
  statement_of_template 0x71#8 (.two .adcIzY) rfl rfl ⟨nn, rfl, rfl⟩

theorem sbcImm (nn : Byte) : Statement (.sbcImm nn) :=
  statement_of_template 0xE9#8 (.two .sbcImm) rfl rfl ⟨nn, rfl, rfl⟩

theorem sbcZp (nn : Byte) : Statement (.sbcZp nn) :=
  statement_of_template 0xE5#8 (.two .sbcZp) rfl rfl ⟨nn, rfl, rfl⟩

theorem sbcZpX (nn : Byte) : Statement (.sbcZpX nn) :=
  statement_of_template 0xF5#8 (.two .sbcZpX) rfl rfl ⟨nn, rfl, rfl⟩

theorem sbcAbs (w : Word) : Statement (.sbcAbs w) :=
  statement_of_template 0xED#8 (.three .sbcAbs) rfl rfl ⟨w, rfl, rfl⟩

theorem sbcAbsX (w : Word) : Statement (.sbcAbsX w) :=
  statement_of_template 0xFD#8 (.three .sbcAbsX) rfl rfl ⟨w, rfl, rfl⟩

theorem sbcAbsY (w : Word) : Statement (.sbcAbsY w) :=
  statement_of_template 0xF9#8 (.three .sbcAbsY) rfl rfl ⟨w, rfl, rfl⟩

theorem sbcIzX (nn : Byte) : Statement (.sbcIzX nn) :=
  statement_of_template 0xE1#8 (.two .sbcIzX) rfl rfl ⟨nn, rfl, rfl⟩

theorem sbcIzY (nn : Byte) : Statement (.sbcIzY nn) :=
  statement_of_template 0xF1#8 (.two .sbcIzY) rfl rfl ⟨nn, rfl, rfl⟩

theorem andImm (nn : Byte) : Statement (.andImm nn) :=
  statement_of_template 0x29#8 (.two .andImm) rfl rfl ⟨nn, rfl, rfl⟩

theorem andZp (nn : Byte) : Statement (.andZp nn) :=
  statement_of_template 0x25#8 (.two .andZp) rfl rfl ⟨nn, rfl, rfl⟩

theorem andZpX (nn : Byte) : Statement (.andZpX nn) :=
  statement_of_template 0x35#8 (.two .andZpX) rfl rfl ⟨nn, rfl, rfl⟩

theorem andAbs (w : Word) : Statement (.andAbs w) :=
  statement_of_template 0x2D#8 (.three .andAbs) rfl rfl ⟨w, rfl, rfl⟩

theorem andAbsX (w : Word) : Statement (.andAbsX w) :=
  statement_of_template 0x3D#8 (.three .andAbsX) rfl rfl ⟨w, rfl, rfl⟩

theorem andAbsY (w : Word) : Statement (.andAbsY w) :=
  statement_of_template 0x39#8 (.three .andAbsY) rfl rfl ⟨w, rfl, rfl⟩

theorem andIzX (nn : Byte) : Statement (.andIzX nn) :=
  statement_of_template 0x21#8 (.two .andIzX) rfl rfl ⟨nn, rfl, rfl⟩

theorem andIzY (nn : Byte) : Statement (.andIzY nn) :=
  statement_of_template 0x31#8 (.two .andIzY) rfl rfl ⟨nn, rfl, rfl⟩

theorem oraImm (nn : Byte) : Statement (.oraImm nn) :=
  statement_of_template 0x09#8 (.two .oraImm) rfl rfl ⟨nn, rfl, rfl⟩

theorem oraZp (nn : Byte) : Statement (.oraZp nn) :=
  statement_of_template 0x05#8 (.two .oraZp) rfl rfl ⟨nn, rfl, rfl⟩

theorem oraZpX (nn : Byte) : Statement (.oraZpX nn) :=
  statement_of_template 0x15#8 (.two .oraZpX) rfl rfl ⟨nn, rfl, rfl⟩

theorem oraAbs (w : Word) : Statement (.oraAbs w) :=
  statement_of_template 0x0D#8 (.three .oraAbs) rfl rfl ⟨w, rfl, rfl⟩

theorem oraAbsX (w : Word) : Statement (.oraAbsX w) :=
  statement_of_template 0x1D#8 (.three .oraAbsX) rfl rfl ⟨w, rfl, rfl⟩

theorem oraAbsY (w : Word) : Statement (.oraAbsY w) :=
  statement_of_template 0x19#8 (.three .oraAbsY) rfl rfl ⟨w, rfl, rfl⟩

theorem oraIzX (nn : Byte) : Statement (.oraIzX nn) :=
  statement_of_template 0x01#8 (.two .oraIzX) rfl rfl ⟨nn, rfl, rfl⟩

theorem oraIzY (nn : Byte) : Statement (.oraIzY nn) :=
  statement_of_template 0x11#8 (.two .oraIzY) rfl rfl ⟨nn, rfl, rfl⟩

theorem eorImm (nn : Byte) : Statement (.eorImm nn) :=
  statement_of_template 0x49#8 (.two .eorImm) rfl rfl ⟨nn, rfl, rfl⟩

theorem eorZp (nn : Byte) : Statement (.eorZp nn) :=
  statement_of_template 0x45#8 (.two .eorZp) rfl rfl ⟨nn, rfl, rfl⟩

theorem eorZpX (nn : Byte) : Statement (.eorZpX nn) :=
  statement_of_template 0x55#8 (.two .eorZpX) rfl rfl ⟨nn, rfl, rfl⟩

theorem eorAbs (w : Word) : Statement (.eorAbs w) :=
  statement_of_template 0x4D#8 (.three .eorAbs) rfl rfl ⟨w, rfl, rfl⟩

theorem eorAbsX (w : Word) : Statement (.eorAbsX w) :=
  statement_of_template 0x5D#8 (.three .eorAbsX) rfl rfl ⟨w, rfl, rfl⟩

theorem eorAbsY (w : Word) : Statement (.eorAbsY w) :=
  statement_of_template 0x59#8 (.three .eorAbsY) rfl rfl ⟨w, rfl, rfl⟩

theorem eorIzX (nn : Byte) : Statement (.eorIzX nn) :=
  statement_of_template 0x41#8 (.two .eorIzX) rfl rfl ⟨nn, rfl, rfl⟩

theorem eorIzY (nn : Byte) : Statement (.eorIzY nn) :=
  statement_of_template 0x51#8 (.two .eorIzY) rfl rfl ⟨nn, rfl, rfl⟩

theorem cmpImm (nn : Byte) : Statement (.cmpImm nn) :=
  statement_of_template 0xC9#8 (.two .cmpImm) rfl rfl ⟨nn, rfl, rfl⟩

theorem cmpZp (nn : Byte) : Statement (.cmpZp nn) :=
  statement_of_template 0xC5#8 (.two .cmpZp) rfl rfl ⟨nn, rfl, rfl⟩

theorem cmpZpX (nn : Byte) : Statement (.cmpZpX nn) :=
  statement_of_template 0xD5#8 (.two .cmpZpX) rfl rfl ⟨nn, rfl, rfl⟩

theorem cmpAbs (w : Word) : Statement (.cmpAbs w) :=
  statement_of_template 0xCD#8 (.three .cmpAbs) rfl rfl ⟨w, rfl, rfl⟩

theorem cmpAbsX (w : Word) : Statement (.cmpAbsX w) :=
  statement_of_template 0xDD#8 (.three .cmpAbsX) rfl rfl ⟨w, rfl, rfl⟩

theorem cmpAbsY (w : Word) : Statement (.cmpAbsY w) :=
  statement_of_template 0xD9#8 (.three .cmpAbsY) rfl rfl ⟨w, rfl, rfl⟩

theorem cmpIzX (nn : Byte) : Statement (.cmpIzX nn) :=
  statement_of_template 0xC1#8 (.two .cmpIzX) rfl rfl ⟨nn, rfl, rfl⟩

theorem cmpIzY (nn : Byte) : Statement (.cmpIzY nn) :=
  statement_of_template 0xD1#8 (.two .cmpIzY) rfl rfl ⟨nn, rfl, rfl⟩

theorem cpxImm (nn : Byte) : Statement (.cpxImm nn) :=
  statement_of_template 0xE0#8 (.two .cpxImm) rfl rfl ⟨nn, rfl, rfl⟩

theorem cpxZp (nn : Byte) : Statement (.cpxZp nn) :=
  statement_of_template 0xE4#8 (.two .cpxZp) rfl rfl ⟨nn, rfl, rfl⟩

theorem cpxAbs (w : Word) : Statement (.cpxAbs w) :=
  statement_of_template 0xEC#8 (.three .cpxAbs) rfl rfl ⟨w, rfl, rfl⟩

theorem cpyImm (nn : Byte) : Statement (.cpyImm nn) :=
  statement_of_template 0xC0#8 (.two .cpyImm) rfl rfl ⟨nn, rfl, rfl⟩

theorem cpyZp (nn : Byte) : Statement (.cpyZp nn) :=
  statement_of_template 0xC4#8 (.two .cpyZp) rfl rfl ⟨nn, rfl, rfl⟩

theorem cpyAbs (w : Word) : Statement (.cpyAbs w) :=
  statement_of_template 0xCC#8 (.three .cpyAbs) rfl rfl ⟨w, rfl, rfl⟩

theorem bitZp (nn : Byte) : Statement (.bitZp nn) :=
  statement_of_template 0x24#8 (.two .bitZp) rfl rfl ⟨nn, rfl, rfl⟩

theorem bitAbs (w : Word) : Statement (.bitAbs w) :=
  statement_of_template 0x2C#8 (.three .bitAbs) rfl rfl ⟨w, rfl, rfl⟩

theorem staZp (nn : Byte) : Statement (.staZp nn) :=
  statement_of_template 0x85#8 (.two .staZp) rfl rfl ⟨nn, rfl, rfl⟩

theorem staZpX (nn : Byte) : Statement (.staZpX nn) :=
  statement_of_template 0x95#8 (.two .staZpX) rfl rfl ⟨nn, rfl, rfl⟩

theorem staAbs (w : Word) : Statement (.staAbs w) :=
  statement_of_template 0x8D#8 (.three .staAbs) rfl rfl ⟨w, rfl, rfl⟩

theorem staAbsX (w : Word) : Statement (.staAbsX w) :=
  statement_of_template 0x9D#8 (.three .staAbsX) rfl rfl ⟨w, rfl, rfl⟩

theorem staAbsY (w : Word) : Statement (.staAbsY w) :=
  statement_of_template 0x99#8 (.three .staAbsY) rfl rfl ⟨w, rfl, rfl⟩

theorem staIzX (nn : Byte) : Statement (.staIzX nn) :=
  statement_of_template 0x81#8 (.two .staIzX) rfl rfl ⟨nn, rfl, rfl⟩

theorem staIzY (nn : Byte) : Statement (.staIzY nn) :=
  statement_of_template 0x91#8 (.two .staIzY) rfl rfl ⟨nn, rfl, rfl⟩

theorem stxZp (nn : Byte) : Statement (.stxZp nn) :=
  statement_of_template 0x86#8 (.two .stxZp) rfl rfl ⟨nn, rfl, rfl⟩

theorem stxZpY (nn : Byte) : Statement (.stxZpY nn) :=
  statement_of_template 0x96#8 (.two .stxZpY) rfl rfl ⟨nn, rfl, rfl⟩

theorem stxAbs (w : Word) : Statement (.stxAbs w) :=
  statement_of_template 0x8E#8 (.three .stxAbs) rfl rfl ⟨w, rfl, rfl⟩

theorem styZp (nn : Byte) : Statement (.styZp nn) :=
  statement_of_template 0x84#8 (.two .styZp) rfl rfl ⟨nn, rfl, rfl⟩

theorem styZpX (nn : Byte) : Statement (.styZpX nn) :=
  statement_of_template 0x94#8 (.two .styZpX) rfl rfl ⟨nn, rfl, rfl⟩

theorem styAbs (w : Word) : Statement (.styAbs w) :=
  statement_of_template 0x8C#8 (.three .styAbs) rfl rfl ⟨w, rfl, rfl⟩

theorem incZp (nn : Byte) : Statement (.incZp nn) :=
  statement_of_template 0xE6#8 (.two .incZp) rfl rfl ⟨nn, rfl, rfl⟩

theorem incZpX (nn : Byte) : Statement (.incZpX nn) :=
  statement_of_template 0xF6#8 (.two .incZpX) rfl rfl ⟨nn, rfl, rfl⟩

theorem incAbs (w : Word) : Statement (.incAbs w) :=
  statement_of_template 0xEE#8 (.three .incAbs) rfl rfl ⟨w, rfl, rfl⟩

theorem incAbsX (w : Word) : Statement (.incAbsX w) :=
  statement_of_template 0xFE#8 (.three .incAbsX) rfl rfl ⟨w, rfl, rfl⟩

theorem decZp (nn : Byte) : Statement (.decZp nn) :=
  statement_of_template 0xC6#8 (.two .decZp) rfl rfl ⟨nn, rfl, rfl⟩

theorem decZpX (nn : Byte) : Statement (.decZpX nn) :=
  statement_of_template 0xD6#8 (.two .decZpX) rfl rfl ⟨nn, rfl, rfl⟩

theorem decAbs (w : Word) : Statement (.decAbs w) :=
  statement_of_template 0xCE#8 (.three .decAbs) rfl rfl ⟨w, rfl, rfl⟩

theorem decAbsX (w : Word) : Statement (.decAbsX w) :=
  statement_of_template 0xDE#8 (.three .decAbsX) rfl rfl ⟨w, rfl, rfl⟩

theorem jmpAbs (w : Word) : Statement (.jmpAbs w) :=
  statement_of_template 0x4C#8 (.three .jmpAbs) rfl rfl ⟨w, rfl, rfl⟩

theorem jmpInd (w : Word) : Statement (.jmpInd w) :=
  statement_of_template 0x6C#8 (.three .jmpInd) rfl rfl ⟨w, rfl, rfl⟩

theorem aslAcc : Statement .aslAcc :=
  statement_of_template 0x0A#8 (.one .aslAcc) rfl rfl ⟨rfl, rfl⟩

theorem aslZp (nn : Byte) : Statement (.aslZp nn) :=
  statement_of_template 0x06#8 (.two .aslZp) rfl rfl ⟨nn, rfl, rfl⟩

theorem aslZpX (nn : Byte) : Statement (.aslZpX nn) :=
  statement_of_template 0x16#8 (.two .aslZpX) rfl rfl ⟨nn, rfl, rfl⟩

theorem aslAbs (w : Word) : Statement (.aslAbs w) :=
  statement_of_template 0x0E#8 (.three .aslAbs) rfl rfl ⟨w, rfl, rfl⟩

theorem aslAbsX (w : Word) : Statement (.aslAbsX w) :=
  statement_of_template 0x1E#8 (.three .aslAbsX) rfl rfl ⟨w, rfl, rfl⟩

theorem lsrAcc : Statement .lsrAcc :=
  statement_of_template 0x4A#8 (.one .lsrAcc) rfl rfl ⟨rfl, rfl⟩

theorem lsrZp (nn : Byte) : Statement (.lsrZp nn) :=
  statement_of_template 0x46#8 (.two .lsrZp) rfl rfl ⟨nn, rfl, rfl⟩

theorem lsrZpX (nn : Byte) : Statement (.lsrZpX nn) :=
  statement_of_template 0x56#8 (.two .lsrZpX) rfl rfl ⟨nn, rfl, rfl⟩

theorem lsrAbs (w : Word) : Statement (.lsrAbs w) :=
  statement_of_template 0x4E#8 (.three .lsrAbs) rfl rfl ⟨w, rfl, rfl⟩

theorem lsrAbsX (w : Word) : Statement (.lsrAbsX w) :=
  statement_of_template 0x5E#8 (.three .lsrAbsX) rfl rfl ⟨w, rfl, rfl⟩

theorem rolAcc : Statement .rolAcc :=
  statement_of_template 0x2A#8 (.one .rolAcc) rfl rfl ⟨rfl, rfl⟩

theorem rolZp (nn : Byte) : Statement (.rolZp nn) :=
  statement_of_template 0x26#8 (.two .rolZp) rfl rfl ⟨nn, rfl, rfl⟩

theorem rolZpX (nn : Byte) : Statement (.rolZpX nn) :=
  statement_of_template 0x36#8 (.two .rolZpX) rfl rfl ⟨nn, rfl, rfl⟩

theorem rolAbs (w : Word) : Statement (.rolAbs w) :=
  statement_of_template 0x2E#8 (.three .rolAbs) rfl rfl ⟨w, rfl, rfl⟩

theorem rolAbsX (w : Word) : Statement (.rolAbsX w) :=
  statement_of_template 0x3E#8 (.three .rolAbsX) rfl rfl ⟨w, rfl, rfl⟩

theorem rorAcc : Statement .rorAcc :=
  statement_of_template 0x6A#8 (.one .rorAcc) rfl rfl ⟨rfl, rfl⟩

theorem rorZp (nn : Byte) : Statement (.rorZp nn) :=
  statement_of_template 0x66#8 (.two .rorZp) rfl rfl ⟨nn, rfl, rfl⟩

theorem rorZpX (nn : Byte) : Statement (.rorZpX nn) :=
  statement_of_template 0x76#8 (.two .rorZpX) rfl rfl ⟨nn, rfl, rfl⟩

theorem rorAbs (w : Word) : Statement (.rorAbs w) :=
  statement_of_template 0x6E#8 (.three .rorAbs) rfl rfl ⟨w, rfl, rfl⟩

theorem rorAbsX (w : Word) : Statement (.rorAbsX w) :=
  statement_of_template 0x7E#8 (.three .rorAbsX) rfl rfl ⟨w, rfl, rfl⟩

theorem bcc (nn : Byte) : Statement (.bcc nn) :=
  statement_of_template 0x90#8 (.two .bcc) rfl rfl ⟨nn, rfl, rfl⟩

theorem bcs (nn : Byte) : Statement (.bcs nn) :=
  statement_of_template 0xB0#8 (.two .bcs) rfl rfl ⟨nn, rfl, rfl⟩

theorem beq (nn : Byte) : Statement (.beq nn) :=
  statement_of_template 0xF0#8 (.two .beq) rfl rfl ⟨nn, rfl, rfl⟩

theorem bne (nn : Byte) : Statement (.bne nn) :=
  statement_of_template 0xD0#8 (.two .bne) rfl rfl ⟨nn, rfl, rfl⟩

theorem bmi (nn : Byte) : Statement (.bmi nn) :=
  statement_of_template 0x30#8 (.two .bmi) rfl rfl ⟨nn, rfl, rfl⟩

theorem bpl (nn : Byte) : Statement (.bpl nn) :=
  statement_of_template 0x10#8 (.two .bpl) rfl rfl ⟨nn, rfl, rfl⟩

theorem bvc (nn : Byte) : Statement (.bvc nn) :=
  statement_of_template 0x50#8 (.two .bvc) rfl rfl ⟨nn, rfl, rfl⟩

theorem bvs (nn : Byte) : Statement (.bvs nn) :=
  statement_of_template 0x70#8 (.two .bvs) rfl rfl ⟨nn, rfl, rfl⟩

theorem pha : Statement .pha :=
  statement_of_template 0x48#8 (.one .pha) rfl rfl ⟨rfl, rfl⟩

theorem pla : Statement .pla :=
  statement_of_template 0x68#8 (.one .pla) rfl rfl ⟨rfl, rfl⟩

theorem php : Statement .php :=
  statement_of_template 0x08#8 (.one .php) rfl rfl ⟨rfl, rfl⟩

theorem plp : Statement .plp :=
  statement_of_template 0x28#8 (.one .plp) rfl rfl ⟨rfl, rfl⟩

theorem jsr (w : Word) : Statement (.jsr w) :=
  statement_of_template 0x20#8 (.three .jsr) rfl rfl ⟨w, rfl, rfl⟩

theorem rts : Statement .rts :=
  statement_of_template 0x60#8 (.one .rts) rfl rfl ⟨rfl, rfl⟩

theorem brk : Statement .brk :=
  statement_of_template 0x00#8 (.one .brk) rfl rfl ⟨rfl, rfl⟩

theorem rti : Statement .rti :=
  statement_of_template 0x40#8 (.one .rti) rfl rfl ⟨rfl, rfl⟩

end Sys2Proof.Laws.Encoding
end

