-- ==== Sys2Proof/Laws/Ram.lean ====
section
/-!
SUPPORT. Where every address is RAM (20_memory.md R76): each shared operation answers, leaves every
address RAM, and changes only what a program can change.
-/

namespace Sys2Proof.Machine

/-- The operation answers from every state of RAM throughout, and leaves one. -/
def Op.OnRam {α : Type} (x : Op α) : Prop :=
  ∀ s : State, s.AllRam → ∃ a t, x s = .ok (a, t) ∧ t.AllRam ∧ SameButProgram s t

theorem SameButProgram.composable : Composable SameButProgram where
  refl _ := rfl
  trans s t u h1 h2 := by
    unfold SameButProgram at *
    rw [h2, h1]

/-- What is RAM depends on the mappings only. -/
theorem State.AllRam.congr {s t : State} (h : s.AllRam) (hst : SameButProgram s t) : t.AllRam := by
  have hm : t.mem = { s.mem with cells := t.mem.cells } := by
    unfold SameButProgram at hst
    rw [hst]
  have hc : t.config = s.config := by
    unfold SameButProgram at hst
    rw [hst]
  intro a
  rw [State.readSlot_congr (s := s) (t := t) (by rw [hm]) (by rw [hm]) (by rw [hm]) hc,
    State.writeSlot_congr (s := s) (t := t) (by rw [hm]) (by rw [hm]) (by rw [hm]) hc]
  exact h a

variable {α β : Type}

theorem Op.OnRam.pure (a : α) : Op.OnRam (pure a : Op α) := fun s h => ⟨a, s, rfl, h, rfl⟩

theorem Op.OnRam.get : Op.OnRam (get : Op State) := fun s h => ⟨s, s, rfl, h, rfl⟩

/-- A register update. -/
theorem Op.OnRam.modify {f : State → State} (hf : ∀ s, SameButProgram s (f s)) :
    Op.OnRam (modify f : Op Unit) := fun s h => ⟨(), f s, rfl, h.congr (hf s), hf s⟩

theorem Op.OnRam.bind {x : Op α} {f : α → Op β} (hx : Op.OnRam x) (hf : ∀ a, Op.OnRam (f a)) :
    Op.OnRam (x >>= f) := by
  intro s h
  obtain ⟨a, t, h1, ht, hst⟩ := hx s h
  obtain ⟨b, u, h2, hu, htu⟩ := hf a t ht
  exact ⟨b, u, by rw [Op.bind_of_ok h1, h2], hu, SameButProgram.composable.trans _ _ _ hst htu⟩

/-- A read. -/
theorem memRead_onRam (a : Word) : Op.OnRam (memRead a) := by
  intro s h
  obtain ⟨k, hk⟩ := (h a).1
  exact ⟨_, s, memRead_of_peek (State.peek_of_readSlot hk), h, rfl⟩

/-- A write. -/
theorem memWrite_onRam (a : Word) (v : Byte) : Op.OnRam (memWrite a v) := by
  intro s h
  obtain ⟨k, hk⟩ := (h a).2
  have hst : SameButProgram s (s.setMem (s.mem.store k v)) := rfl
  exact ⟨(), _, memWrite_of_slot hk v, h.congr hst, hst⟩

/-- A word read. -/
theorem memReadWord_onRam (a : Word) : Op.OnRam (memReadWord a) :=
  (memRead_onRam _).bind fun _ => (memRead_onRam _).bind fun _ => .pure _

/-- Resolution. -/
theorem effectiveAddress_onRam (m : Address) : Op.OnRam (effectiveAddress m) := by
  have zp : ∀ p, Op.OnRam (readZeroPagePointer p) := by
    intro p
    refine Op.OnRam.bind .get fun s => ?_
    split
    · exact memReadWord_onRam _
    · exact (memRead_onRam _).bind fun _ => (memRead_onRam _).bind fun _ => .pure _
  have jp : ∀ w, Op.OnRam (readJumpPointer w) := fun w =>
    (memRead_onRam _).bind fun _ => (memRead_onRam _).bind fun _ => .pure _
  cases m with
  | zeroPage nn => exact .pure _
  | zeroPageX nn => exact Op.OnRam.bind .get fun _ => .pure _
  | zeroPageY nn => exact Op.OnRam.bind .get fun _ => .pure _
  | absolute w => exact .pure _
  | absoluteX w => exact Op.OnRam.bind .get fun _ => .pure _
  | absoluteY w => exact Op.OnRam.bind .get fun _ => .pure _
  | indexedIndirectX nn => exact Op.OnRam.bind .get fun _ => (zp _).bind fun _ => .pure _
  | indirectIndexedY nn => exact (zp _).bind fun _ => Op.OnRam.bind .get fun _ => .pure _
  | indirect w => exact (jp _).bind fun _ => .pure _

/-- The resolved address. -/
theorem locate_onRam (m : Address) : Op.OnRam (locate m) :=
  (effectiveAddress_onRam m).bind fun r =>
    (Op.OnRam.modify (f := fun s => s.setEvents { s.events with crossed := r.2 }) fun _ => rfl).bind
      fun _ => .pure r.1

/-- The operand byte. -/
theorem loadOperand_onRam (m : Address) : Op.OnRam (loadOperand m) :=
  (locate_onRam m).bind fun _ => memRead_onRam _

/-- A push. -/
theorem push8_onRam (v : Byte) : Op.OnRam (push8 v) :=
  Op.OnRam.bind .get fun _ => (memWrite_onRam _ _).bind fun _ => .modify fun _ => rfl

/-- A pull. -/
theorem pull8_onRam : Op.OnRam pull8 :=
  (Op.OnRam.modify (f := fun s => s.setSp (s.sp + 1)) fun _ => rfl).bind fun _ =>
    Op.OnRam.bind .get fun _ => memRead_onRam _

/-- A word push. -/
theorem push16_onRam (w : Word) : Op.OnRam (push16 w) := (push8_onRam _).bind fun _ => push8_onRam _

/-- A word pull. -/
theorem pull16_onRam : Op.OnRam pull16 :=
  pull8_onRam.bind fun _ => pull8_onRam.bind fun _ => .pure _

/-- Exception entry. -/
theorem enterException_onRam (returnPc : Word) (copy : Byte → Byte) (vector : Word) :
    Op.OnRam (enterException returnPc copy vector) :=
  (push16_onRam _).bind fun _ => Op.OnRam.bind .get fun _ => (push8_onRam _).bind fun _ =>
    (Op.OnRam.modify (f := fun s => s.setP (s.p ||| 0x04#8)) fun _ => rfl).bind fun _ =>
      (memReadWord_onRam _).bind fun _ => .modify fun _ => rfl

/-- The status pull. -/
theorem pullStatus_onRam : Op.OnRam pullStatus :=
  pull8_onRam.bind fun _ => .modify fun _ => rfl

/-- Exception return. -/
theorem returnFromException_onRam : Op.OnRam returnFromException :=
  pullStatus_onRam.bind fun _ => pull16_onRam.bind fun _ => .modify fun _ => rfl

end Sys2Proof.Machine
end

