-- ==== Sys2Proof/Laws/Table.lean ====
section
/-!
SUPPORT. The instruction table (30_encoding.md R94): looking a byte up finds a row of that byte, and in
a table without duplicates every row is the one found.
-/

namespace Sys2Proof

/-- The row found is registered under the byte looked up. -/
theorem findRow_opcode {table : List TableRow} {op : Byte} {row : TableRow}
    (h : findRow table op = some row) : row.opcode = op := by
  simpa using List.find?_some h

/-- The row found is in the table. -/
theorem findRow_mem {table : List TableRow} {op : Byte} {row : TableRow}
    (h : findRow table op = some row) : row ∈ table :=
  List.mem_of_find?_eq_some h

/-- In a table without duplicate opcode bytes every row is found by its byte. -/
theorem findRow_of_mem {table : List TableRow} (h : tableUnique table = true) {row : TableRow}
    (hr : row ∈ table) : findRow table row.opcode = some row := by
  induction table with
  | nil => cases hr
  | cons first rest ih =>
    simp only [tableUnique, Bool.and_eq_true, Option.isNone_iff_eq_none] at h
    rcases List.mem_cons.1 hr with rfl | hm
    · simp [findRow]
    · have hrest := ih h.2 hm
      have hne : (first.opcode == row.opcode) = false := by
        simp only [beq_eq_false_iff_ne, ne_eq]
        intro e
        rw [e, hrest] at h
        exact absurd h.1 (by simp)
      simpa [findRow, hne] using hrest

/-- The opcode bytes rise strictly from `low` on. -/
def ascending : Nat → List TableRow → Bool
  | _, [] => true
  | low, row :: rest => Nat.ble low row.opcode.toNat && ascending (row.opcode.toNat + 1) rest

/-- A rising table holds no byte below its bound. -/
theorem findRow_below : ∀ {low : Nat} {table : List TableRow}, ascending low table = true →
    ∀ op : Byte, op.toNat < low → findRow table op = none
  | _, [], _, _, _ => rfl
  | low, row :: rest, h, op, hop => by
    simp only [ascending, Bool.and_eq_true, Nat.ble_eq] at h
    have hne : (row.opcode == op) = false := by
      simp only [beq_eq_false_iff_ne, ne_eq]
      intro e
      rw [e] at h
      omega
    have hrest := findRow_below h.2 op (by omega)
    simpa [findRow, hne] using hrest

/-- A rising table has no duplicate. -/
theorem tableUnique_of_ascending : ∀ {low : Nat} {table : List TableRow},
    ascending low table = true → tableUnique table = true
  | _, [], _ => rfl
  | low, row :: rest, h => by
    simp only [ascending, Bool.and_eq_true] at h
    simp [tableUnique, findRow_below h.2 row.opcode (by omega), tableUnique_of_ascending h.2]

/-- The default table has no duplicate opcode byte (R94). -/
theorem tableUnique_default : tableUnique defaultTable = true :=
  tableUnique_of_ascending (low := 0) (by decide +kernel)

/-- Registration accepts a rising table behind rows with lower bytes. -/
theorem Machine.registerAll_of_ascending : ∀ {table acc : List TableRow} {low : Nat},
    ascending low table = true → (∀ row ∈ acc, row.opcode.toNat < low) →
    Machine.registerAll acc table = .ok (acc ++ table)
  | [], acc, _, _, _ => by simp [Machine.registerAll]
  | row :: rest, acc, low, h, hacc => by
    simp only [ascending, Bool.and_eq_true, Nat.ble_eq] at h
    have hnone : findRow acc row.opcode = none := by
      refine List.find?_eq_none.2 fun r hr => ?_
      have := hacc r hr
      intro e
      rw [beq_iff_eq] at e
      rw [e] at this
      omega
    simp only [Machine.registerAll, Machine.registerOpcode, hnone]
    rw [Machine.registerAll_of_ascending h.2 fun r hr => ?_, List.append_assoc]
    · rfl
    · rcases List.mem_append.1 hr with hr | hr
      · have := hacc r hr
        omega
      · rw [List.mem_singleton.1 hr]
        omega

/-- The default table is registered row by row (R94). -/
theorem Machine.registerAll_default : Machine.registerAll [] defaultTable = .ok defaultTable :=
  Machine.registerAll_of_ascending (low := 0) (by decide +kernel) (by simp)

/-- The default parameters lie in the ranges of 00_scope.md R8. -/
theorem default_wellFormed : Config.default.wellFormed = true := by
  have h : defaultTable.all TableRow.wellFormed = true := by decide +kernel
  simp [Config.wellFormed, Config.default, tableUnique_default, h]

/-- With parameters in range every row costs at least one cycle (40_step_addressing_flags.md R124). -/
theorem one_le_cycles {c : Config} (h : c.wellFormed = true) {op : Byte} {row : TableRow}
    (hr : findRow c.table op = some row) : 1 ≤ row.cycles := by
  simp only [Config.wellFormed, Bool.and_eq_true, List.all_eq_true] at h
  have hw := h.2 row (findRow_mem hr)
  simp only [TableRow.wellFormed, Bool.and_eq_true, decide_eq_true_eq] at hw
  exact hw.2

/-- A row of a rule's table, from its membership in the default table. -/
theorem Machine.tableSays_of_mem {i : Instr} {op : Byte} {m : Mnemonic} {mode : Mode}
    {length cycles extra : Nat} {relative : Bool} (ho : i.opcode = op) (hl : i.length = length)
    (hn : i.mnemonic = m) (hd : i.operand.mode = mode) (hr : Machine.isRelative i.operand = relative)
    (hm : (⟨op, .documented m, mode, length, cycles, extra, relative⟩ : TableRow) ∈ defaultTable) :
    Machine.TableSays i op length cycles extra := by
  refine ⟨ho, hl, ?_⟩
  rw [hn, hd, hr]
  exact findRow_of_mem tableUnique_default hm

/-- An instruction's bytes are its opcode byte and the operand bytes of its mode (R91). -/
theorem operandBytes_eq (i : Instr) : i.operandBytes = i.operand.bytes := by
  cases i <;> rfl

/-- The operand bytes of a mode, and the opcode byte, are its size (R90). -/
theorem length_bytes (o : Operand) : o.bytes.length + 1 = o.mode.size := by
  cases o with
  | memory m => cases m <;> rfl
  | _ => rfl

end Sys2Proof
end

