-- ==== Sys2Proof/Tests/Slice0.lean ====
section
/-!
SUPPORT. Tests: ill-formed terms refused, a word of every opcode decoded, single steps against the
vectors of 95_test_vectors.md, and for each statement with hypotheses a witness that meets them.
-/

namespace Sys2Proof.Machine.Tests

set_option Elab.async false

/-! ## Small states -/

/-- The default platform with registers and RAM cells, a call in progress (95, start state). -/
def machine (pc : Word) (sp a x y p : Byte) (cells : List Host.Cell) : State :=
  { State.reset with
    pc := pc, sp := sp, a := a, x := x, y := y, p := p, mem := { Memory.flatRam with cells := cells } }


/-- The state with `ZP_PTR_WRAP = page0`. -/
def onPage0 (s : State) : State := { s with config := { s.config with zpPtrWrap := .page0 } }

/-- What a vector of file 95 says after a step: registers and the cycles of the step. -/
structure Registers where
  pc : Word
  sp : Byte
  a : Byte
  x : Byte
  y : Byte
  p : Byte
  cycles : Nat
  deriving DecidableEq, Repr

/-- The registers and the listed bytes after one step, if the step has a next state. -/
def after (s : State) (addrs : List Nat) : Option (Registers × List Byte) :=
  match step s with
  | .next t => some (⟨t.pc, t.sp, t.a, t.x, t.y, t.p, t.call.cyclesConsumed⟩, addrs.map t.mem.byteAt)
  | .fault _ => none
  | .refused _ => none

/-- A row of NOP in Implied mode. -/
def nopRow (opcode : Byte) : TableRow := ⟨opcode, .documented .nop, .implied, 1, 2, 0, false⟩

/-! ## Well-formedness refuses what is ill-formed -/

/-- The default parameters are well formed, and so is an instruction whose opcode is registered. -/
theorem test_wellFormed_accepts :
    Config.default.wellFormed = true ∧ Instr.nop.wellFormed Config.default.table = true := by
  decide +kernel

theorem test_wellFormed_refuses_no_memory : { Config.default with memSize := 0 }.wellFormed = false := by
  decide +kernel

theorem test_wellFormed_refuses_large_memory :
    { Config.default with memSize := 65537 }.wellFormed = false := by
  decide +kernel

theorem test_wellFormed_refuses_no_configuration :
    { Config.default with numConfigs := 0 }.wellFormed = false := by
  decide +kernel

theorem test_wellFormed_refuses_duplicate_opcode :
    { Config.default with table := [nopRow 0xEA#8, nopRow 0xEA#8] }.wellFormed = false := by
  decide +kernel

theorem test_wellFormed_refuses_row_without_cycles :
    { Config.default with table := [{ nopRow 0xEA#8 with cycles := 0 }] }.wellFormed = false := by
  decide +kernel

theorem test_wellFormed_refuses_row_of_wrong_size :
    { Config.default with table := [{ nopRow 0xEA#8 with size := 2 }] }.wellFormed = false := by
  decide +kernel

theorem test_wellFormed_refuses_unregistered_instruction :
    Instr.nop.wellFormed [nopRow 0xE8#8] = false := by
  decide +kernel

/-- The byte is registered, but as another mnemonic or in another mode. -/
theorem test_wellFormed_refuses_byte_registered_otherwise :
    Instr.inx.wellFormed [nopRow 0xE8#8] = false ∧
    (Instr.ldaImm 0x10#8).wellFormed
      [⟨0xA9#8, .documented .lda, .zeroPage, 2, 3, 0, false⟩] = false := by
  decide +kernel

/-! ## Decoding: a word of every row of R95, the bytes written out (R91, R100) -/

/-- Row `0x` of the matrix of R95. -/
theorem test_decode_row_0 :
    decodeTableWord 8 0x00 = some .brk ∧
    decodeTableWord 16 0xA501 = some (.oraIzX 0xA5#8) ∧
    decodeTableWord 16 0xA505 = some (.oraZp 0xA5#8) ∧
    decodeTableWord 16 0xA506 = some (.aslZp 0xA5#8) ∧
    decodeTableWord 8 0x08 = some .php ∧
    decodeTableWord 16 0xA509 = some (.oraImm 0xA5#8) ∧
    decodeTableWord 8 0x0A = some .aslAcc ∧
    decodeTableWord 24 0x12340D = some (.oraAbs 0x1234#16) ∧
    decodeTableWord 24 0x12340E = some (.aslAbs 0x1234#16) := by
  decide +kernel

/-- Row `1x` of the matrix of R95. -/
theorem test_decode_row_1 :
    decodeTableWord 16 0xA510 = some (.bpl 0xA5#8) ∧
    decodeTableWord 16 0xA511 = some (.oraIzY 0xA5#8) ∧
    decodeTableWord 16 0xA515 = some (.oraZpX 0xA5#8) ∧
    decodeTableWord 16 0xA516 = some (.aslZpX 0xA5#8) ∧
    decodeTableWord 8 0x18 = some .clc ∧
    decodeTableWord 24 0x123419 = some (.oraAbsY 0x1234#16) ∧
    decodeTableWord 24 0x12341D = some (.oraAbsX 0x1234#16) ∧
    decodeTableWord 24 0x12341E = some (.aslAbsX 0x1234#16) := by
  decide +kernel

/-- Row `2x` of the matrix of R95. -/
theorem test_decode_row_2 :
    decodeTableWord 24 0x123420 = some (.jsr 0x1234#16) ∧
    decodeTableWord 16 0xA521 = some (.andIzX 0xA5#8) ∧
    decodeTableWord 16 0xA524 = some (.bitZp 0xA5#8) ∧
    decodeTableWord 16 0xA525 = some (.andZp 0xA5#8) ∧
    decodeTableWord 16 0xA526 = some (.rolZp 0xA5#8) ∧
    decodeTableWord 8 0x28 = some .plp ∧
    decodeTableWord 16 0xA529 = some (.andImm 0xA5#8) ∧
    decodeTableWord 8 0x2A = some .rolAcc ∧
    decodeTableWord 24 0x12342C = some (.bitAbs 0x1234#16) ∧
    decodeTableWord 24 0x12342D = some (.andAbs 0x1234#16) ∧
    decodeTableWord 24 0x12342E = some (.rolAbs 0x1234#16) := by
  decide +kernel

/-- Row `3x` of the matrix of R95. -/
theorem test_decode_row_3 :
    decodeTableWord 16 0xA530 = some (.bmi 0xA5#8) ∧
    decodeTableWord 16 0xA531 = some (.andIzY 0xA5#8) ∧
    decodeTableWord 16 0xA535 = some (.andZpX 0xA5#8) ∧
    decodeTableWord 16 0xA536 = some (.rolZpX 0xA5#8) ∧
    decodeTableWord 8 0x38 = some .sec ∧
    decodeTableWord 24 0x123439 = some (.andAbsY 0x1234#16) ∧
    decodeTableWord 24 0x12343D = some (.andAbsX 0x1234#16) ∧
    decodeTableWord 24 0x12343E = some (.rolAbsX 0x1234#16) := by
  decide +kernel

/-- Row `4x` of the matrix of R95. -/
theorem test_decode_row_4 :
    decodeTableWord 8 0x40 = some .rti ∧
    decodeTableWord 16 0xA541 = some (.eorIzX 0xA5#8) ∧
    decodeTableWord 16 0xA545 = some (.eorZp 0xA5#8) ∧
    decodeTableWord 16 0xA546 = some (.lsrZp 0xA5#8) ∧
    decodeTableWord 8 0x48 = some .pha ∧
    decodeTableWord 16 0xA549 = some (.eorImm 0xA5#8) ∧
    decodeTableWord 8 0x4A = some .lsrAcc ∧
    decodeTableWord 24 0x12344C = some (.jmpAbs 0x1234#16) ∧
    decodeTableWord 24 0x12344D = some (.eorAbs 0x1234#16) ∧
    decodeTableWord 24 0x12344E = some (.lsrAbs 0x1234#16) := by
  decide +kernel

/-- Row `5x` of the matrix of R95. -/
theorem test_decode_row_5 :
    decodeTableWord 16 0xA550 = some (.bvc 0xA5#8) ∧
    decodeTableWord 16 0xA551 = some (.eorIzY 0xA5#8) ∧
    decodeTableWord 16 0xA555 = some (.eorZpX 0xA5#8) ∧
    decodeTableWord 16 0xA556 = some (.lsrZpX 0xA5#8) ∧
    decodeTableWord 8 0x58 = some .cli ∧
    decodeTableWord 24 0x123459 = some (.eorAbsY 0x1234#16) ∧
    decodeTableWord 24 0x12345D = some (.eorAbsX 0x1234#16) ∧
    decodeTableWord 24 0x12345E = some (.lsrAbsX 0x1234#16) := by
  decide +kernel

/-- Row `6x` of the matrix of R95. -/
theorem test_decode_row_6 :
    decodeTableWord 8 0x60 = some .rts ∧
    decodeTableWord 16 0xA561 = some (.adcIzX 0xA5#8) ∧
    decodeTableWord 16 0xA565 = some (.adcZp 0xA5#8) ∧
    decodeTableWord 16 0xA566 = some (.rorZp 0xA5#8) ∧
    decodeTableWord 8 0x68 = some .pla ∧
    decodeTableWord 16 0xA569 = some (.adcImm 0xA5#8) ∧
    decodeTableWord 8 0x6A = some .rorAcc ∧
    decodeTableWord 24 0x12346C = some (.jmpInd 0x1234#16) ∧
    decodeTableWord 24 0x12346D = some (.adcAbs 0x1234#16) ∧
    decodeTableWord 24 0x12346E = some (.rorAbs 0x1234#16) := by
  decide +kernel

/-- Row `7x` of the matrix of R95. -/
theorem test_decode_row_7 :
    decodeTableWord 16 0xA570 = some (.bvs 0xA5#8) ∧
    decodeTableWord 16 0xA571 = some (.adcIzY 0xA5#8) ∧
    decodeTableWord 16 0xA575 = some (.adcZpX 0xA5#8) ∧
    decodeTableWord 16 0xA576 = some (.rorZpX 0xA5#8) ∧
    decodeTableWord 8 0x78 = some .sei ∧
    decodeTableWord 24 0x123479 = some (.adcAbsY 0x1234#16) ∧
    decodeTableWord 24 0x12347D = some (.adcAbsX 0x1234#16) ∧
    decodeTableWord 24 0x12347E = some (.rorAbsX 0x1234#16) := by
  decide +kernel

/-- Row `8x` of the matrix of R95. -/
theorem test_decode_row_8 :
    decodeTableWord 16 0xA581 = some (.staIzX 0xA5#8) ∧
    decodeTableWord 16 0xA584 = some (.styZp 0xA5#8) ∧
    decodeTableWord 16 0xA585 = some (.staZp 0xA5#8) ∧
    decodeTableWord 16 0xA586 = some (.stxZp 0xA5#8) ∧
    decodeTableWord 8 0x88 = some .dey ∧
    decodeTableWord 8 0x8A = some .txa ∧
    decodeTableWord 24 0x12348C = some (.styAbs 0x1234#16) ∧
    decodeTableWord 24 0x12348D = some (.staAbs 0x1234#16) ∧
    decodeTableWord 24 0x12348E = some (.stxAbs 0x1234#16) := by
  decide +kernel

/-- Row `9x` of the matrix of R95. -/
theorem test_decode_row_9 :
    decodeTableWord 16 0xA590 = some (.bcc 0xA5#8) ∧
    decodeTableWord 16 0xA591 = some (.staIzY 0xA5#8) ∧
    decodeTableWord 16 0xA594 = some (.styZpX 0xA5#8) ∧
    decodeTableWord 16 0xA595 = some (.staZpX 0xA5#8) ∧
    decodeTableWord 16 0xA596 = some (.stxZpY 0xA5#8) ∧
    decodeTableWord 8 0x98 = some .tya ∧
    decodeTableWord 24 0x123499 = some (.staAbsY 0x1234#16) ∧
    decodeTableWord 8 0x9A = some .txs ∧
    decodeTableWord 24 0x12349D = some (.staAbsX 0x1234#16) := by
  decide +kernel

/-- Row `Ax` of the matrix of R95. -/
theorem test_decode_row_A :
    decodeTableWord 16 0xA5A0 = some (.ldyImm 0xA5#8) ∧
    decodeTableWord 16 0xA5A1 = some (.ldaIzX 0xA5#8) ∧
    decodeTableWord 16 0xA5A2 = some (.ldxImm 0xA5#8) ∧
    decodeTableWord 16 0xA5A4 = some (.ldyZp 0xA5#8) ∧
    decodeTableWord 16 0xA5A5 = some (.ldaZp 0xA5#8) ∧
    decodeTableWord 16 0xA5A6 = some (.ldxZp 0xA5#8) ∧
    decodeTableWord 8 0xA8 = some .tay ∧
    decodeTableWord 16 0xA5A9 = some (.ldaImm 0xA5#8) ∧
    decodeTableWord 8 0xAA = some .tax ∧
    decodeTableWord 24 0x1234AC = some (.ldyAbs 0x1234#16) ∧
    decodeTableWord 24 0x1234AD = some (.ldaAbs 0x1234#16) ∧
    decodeTableWord 24 0x1234AE = some (.ldxAbs 0x1234#16) := by
  decide +kernel

/-- Row `Bx` of the matrix of R95. -/
theorem test_decode_row_B :
    decodeTableWord 16 0xA5B0 = some (.bcs 0xA5#8) ∧
    decodeTableWord 16 0xA5B1 = some (.ldaIzY 0xA5#8) ∧
    decodeTableWord 16 0xA5B4 = some (.ldyZpX 0xA5#8) ∧
    decodeTableWord 16 0xA5B5 = some (.ldaZpX 0xA5#8) ∧
    decodeTableWord 16 0xA5B6 = some (.ldxZpY 0xA5#8) ∧
    decodeTableWord 8 0xB8 = some .clv ∧
    decodeTableWord 24 0x1234B9 = some (.ldaAbsY 0x1234#16) ∧
    decodeTableWord 8 0xBA = some .tsx ∧
    decodeTableWord 24 0x1234BC = some (.ldyAbsX 0x1234#16) ∧
    decodeTableWord 24 0x1234BD = some (.ldaAbsX 0x1234#16) ∧
    decodeTableWord 24 0x1234BE = some (.ldxAbsY 0x1234#16) := by
  decide +kernel

/-- Row `Cx` of the matrix of R95. -/
theorem test_decode_row_C :
    decodeTableWord 16 0xA5C0 = some (.cpyImm 0xA5#8) ∧
    decodeTableWord 16 0xA5C1 = some (.cmpIzX 0xA5#8) ∧
    decodeTableWord 16 0xA5C4 = some (.cpyZp 0xA5#8) ∧
    decodeTableWord 16 0xA5C5 = some (.cmpZp 0xA5#8) ∧
    decodeTableWord 16 0xA5C6 = some (.decZp 0xA5#8) ∧
    decodeTableWord 8 0xC8 = some .iny ∧
    decodeTableWord 16 0xA5C9 = some (.cmpImm 0xA5#8) ∧
    decodeTableWord 8 0xCA = some .dex ∧
    decodeTableWord 24 0x1234CC = some (.cpyAbs 0x1234#16) ∧
    decodeTableWord 24 0x1234CD = some (.cmpAbs 0x1234#16) ∧
    decodeTableWord 24 0x1234CE = some (.decAbs 0x1234#16) := by
  decide +kernel

/-- Row `Dx` of the matrix of R95. -/
theorem test_decode_row_D :
    decodeTableWord 16 0xA5D0 = some (.bne 0xA5#8) ∧
    decodeTableWord 16 0xA5D1 = some (.cmpIzY 0xA5#8) ∧
    decodeTableWord 16 0xA5D5 = some (.cmpZpX 0xA5#8) ∧
    decodeTableWord 16 0xA5D6 = some (.decZpX 0xA5#8) ∧
    decodeTableWord 8 0xD8 = some .cld ∧
    decodeTableWord 24 0x1234D9 = some (.cmpAbsY 0x1234#16) ∧
    decodeTableWord 24 0x1234DD = some (.cmpAbsX 0x1234#16) ∧
    decodeTableWord 24 0x1234DE = some (.decAbsX 0x1234#16) := by
  decide +kernel

/-- Row `Ex` of the matrix of R95. -/
theorem test_decode_row_E :
    decodeTableWord 16 0xA5E0 = some (.cpxImm 0xA5#8) ∧
    decodeTableWord 16 0xA5E1 = some (.sbcIzX 0xA5#8) ∧
    decodeTableWord 16 0xA5E4 = some (.cpxZp 0xA5#8) ∧
    decodeTableWord 16 0xA5E5 = some (.sbcZp 0xA5#8) ∧
    decodeTableWord 16 0xA5E6 = some (.incZp 0xA5#8) ∧
    decodeTableWord 8 0xE8 = some .inx ∧
    decodeTableWord 16 0xA5E9 = some (.sbcImm 0xA5#8) ∧
    decodeTableWord 8 0xEA = some .nop ∧
    decodeTableWord 24 0x1234EC = some (.cpxAbs 0x1234#16) ∧
    decodeTableWord 24 0x1234ED = some (.sbcAbs 0x1234#16) ∧
    decodeTableWord 24 0x1234EE = some (.incAbs 0x1234#16) := by
  decide +kernel

/-- Row `Fx` of the matrix of R95. -/
theorem test_decode_row_F :
    decodeTableWord 16 0xA5F0 = some (.beq 0xA5#8) ∧
    decodeTableWord 16 0xA5F1 = some (.sbcIzY 0xA5#8) ∧
    decodeTableWord 16 0xA5F5 = some (.sbcZpX 0xA5#8) ∧
    decodeTableWord 16 0xA5F6 = some (.incZpX 0xA5#8) ∧
    decodeTableWord 8 0xF8 = some .sed ∧
    decodeTableWord 24 0x1234F9 = some (.sbcAbsY 0x1234#16) ∧
    decodeTableWord 24 0x1234FD = some (.sbcAbsX 0x1234#16) ∧
    decodeTableWord 24 0x1234FE = some (.incAbsX 0x1234#16) := by
  decide +kernel

/-! ## Single-step vectors of 95_test_vectors.md, named after their rows -/

/-- R130: ZeroPage. -/
theorem test_am2 :
    after (machine 0x0200 0xFF 0x00 0x00 0x00 0x00 [(0x0010, 0x80), (0x0200, 0xA5), (0x0201, 0x10)])
        [] =
      some (⟨0x0202, 0xFF, 0x80, 0x00, 0x00, 0x80, 3⟩, []) := by
  decide +kernel

/-- R131: ZeroPageX wraps: source example base 0xFF, X=2 gives 0x0001. -/
theorem test_am3 :
    after (machine 0x0200 0xFF 0x00 0x02 0x00 0x00
        [(0x0001, 0x55), (0x0101, 0xAA), (0x0200, 0xB5), (0x0201, 0xFF)])
        [] =
      some (⟨0x0202, 0xFF, 0x55, 0x02, 0x00, 0x00, 4⟩, []) := by
  decide +kernel

/-- R132: ZeroPageY wraps. -/
theorem test_am4 :
    after (machine 0x0200 0xFF 0x00 0x00 0x02 0x00 [(0x0001, 0x66), (0x0200, 0xB6), (0x0201, 0xFF)])
        [] =
      some (⟨0x0202, 0xFF, 0x00, 0x66, 0x02, 0x00, 4⟩, []) := by
  decide +kernel

/-- R133: Absolute. -/
theorem test_am5 :
    after (machine 0x0200 0xFF 0x00 0x00 0x00 0x00
        [(0x0200, 0xAD), (0x0201, 0x34), (0x0202, 0x12), (0x1234, 0x11)])
        [] =
      some (⟨0x0203, 0xFF, 0x11, 0x00, 0x00, 0x00, 4⟩, []) := by
  decide +kernel

/-- R137: AbsoluteX crossing: source example 0x10FF+1 = 0x1100, crossed; +1 cycle. -/
theorem test_am6 :
    after (machine 0x0200 0xFF 0x00 0x01 0x00 0x00
        [(0x0200, 0xBD), (0x0201, 0xFF), (0x0202, 0x10), (0x1100, 0x22)])
        [] =
      some (⟨0x0203, 0xFF, 0x22, 0x01, 0x00, 0x00, 5⟩, []) := by
  decide +kernel

/-- R138: AbsoluteY, 0x00+0xFF = 0xFF: not crossed. -/
theorem test_am8 :
    after (machine 0x0200 0xFF 0x00 0x00 0xFF 0x00 [(0x0200, 0xB9), (0x0202, 0x10), (0x10FF, 0x24)])
        [] =
      some (⟨0x0203, 0xFF, 0x24, 0x00, 0xFF, 0x00, 4⟩, []) := by
  decide +kernel

/-- R138: AbsoluteY crossed. -/
theorem test_am9 :
    after (machine 0x0200 0xFF 0x00 0x00 0xFF 0x00
        [(0x0200, 0xB9), (0x0201, 0x01), (0x0202, 0x10), (0x1100, 0x25)])
        [] =
      some (⟨0x0203, 0xFF, 0x25, 0x00, 0xFF, 0x00, 5⟩, []) := by
  decide +kernel

/-- R137: AbsoluteX wraps past 0xFFFF to 0x0000 (D16), crossed. -/
theorem test_am10 :
    after (machine 0x0200 0xFF 0x00 0x01 0x00 0x00
        [(0x0000, 0x26), (0x0200, 0xBD), (0x0201, 0xFF), (0x0202, 0xFF)])
        [] =
      some (⟨0x0203, 0xFF, 0x26, 0x01, 0x00, 0x00, 5⟩, []) := by
  decide +kernel

/-- R134: (zp,X) pointer at 0xFF, ZP_PTR_WRAP=linear (default): high byte from 0x0100. -/
theorem test_am13 :
    after (machine 0x0200 0xFF 0x00 0x00 0x00 0x00
        [(0x0000, 0x50), (0x0100, 0x40), (0x0200, 0xA1), (0x0201, 0xFF), (0x4000, 0x33), (0x5000, 0x34)])
        [] =
      some (⟨0x0202, 0xFF, 0x33, 0x00, 0x00, 0x00, 6⟩, []) := by
  decide +kernel

/-- R134: same, ZP_PTR_WRAP=page0: high byte from 0x0000. -/
theorem test_am14 :
    after (onPage0 (machine 0x0200 0xFF 0x00 0x00 0x00 0x00
        [(0x0000, 0x50), (0x0100, 0x40), (0x0200, 0xA1), (0x0201, 0xFF), (0x4000, 0x33), (0x5000, 0x34)]))
        [] =
      some (⟨0x0202, 0xFF, 0x34, 0x00, 0x00, 0x00, 6⟩, []) := by
  decide +kernel

/-- R135: (zp),Y crossing, +1 cycle. -/
theorem test_am16 :
    after (machine 0x0200 0xFF 0x00 0x00 0x10 0x00
        [(0x0086, 0xF8), (0x0087, 0x40), (0x0200, 0xB1), (0x0201, 0x86), (0x4108, 0x36)])
        [] =
      some (⟨0x0202, 0xFF, 0x36, 0x00, 0x10, 0x00, 6⟩, []) := by
  decide +kernel

/-- R135: same, page0. -/
theorem test_am18 :
    after (onPage0 (machine 0x0200 0xFF 0x00 0x00 0x01 0x00
        [(0x0000, 0x50), (0x00FF, 0x10), (0x0100, 0x40), (0x0200, 0xB1), (0x0201, 0xFF), (0x4011, 0x37), (0x5011, 0x38)]))
        [] =
      some (⟨0x0202, 0xFF, 0x38, 0x00, 0x01, 0x00, 5⟩, []) := by
  decide +kernel

/-- R136: Indirect JMP bug: source example; target 0x4080 not 0x5080. -/
theorem test_am19 :
    after (machine 0x0200 0xFF 0x00 0x00 0x00 0x00
        [(0x0200, 0x6C), (0x0201, 0xFF), (0x0202, 0x30), (0x3000, 0x40), (0x30FF, 0x80), (0x3100, 0x50)])
        [] =
      some (⟨0x4080, 0xFF, 0x00, 0x00, 0x00, 0x00, 5⟩, []) := by
  decide +kernel

/-- R136: Indirect, pointer not at page end. -/
theorem test_am20 :
    after (machine 0x0200 0xFF 0x00 0x00 0x00 0x00
        [(0x0200, 0x6C), (0x0201, 0x10), (0x0202, 0x30), (0x3010, 0x80), (0x3011, 0x40)])
        [] =
      some (⟨0x4080, 0xFF, 0x00, 0x00, 0x00, 0x00, 5⟩, []) := by
  decide +kernel

/-- R133: operand fetch wraps past 0xFFFF: second operand byte is read from 0x0000, PC …. -/
theorem test_am21 :
    after (machine 0xFFFE 0xFF 0x00 0x00 0x00 0x00 [(0x0000, 0x12), (0xFFFE, 0xAD), (0xFFFF, 0x34)])
        [] =
      some (⟨0x0001, 0xFF, 0x00, 0x00, 0x00, 0x02, 4⟩, []) := by
  decide +kernel

/-- R223: INC zp: one read then one write of the result. -/
theorem test_am22 :
    after (machine 0x0200 0xFF 0x00 0x00 0x00 0x00 [(0x0010, 0x7F), (0x0200, 0xE6), (0x0201, 0x10)])
        [0x0010] =
      some (⟨0x0202, 0xFF, 0x00, 0x00, 0x00, 0x80, 5⟩, [0x80]) := by
  decide +kernel

/-- R274: JSR: operand bytes read, then high byte pushed, then low byte. -/
theorem test_am23 :
    after (machine 0x0200 0xFF 0x00 0x00 0x00 0x00 [(0x0200, 0x20), (0x0201, 0x34), (0x0202, 0x12)])
        [0x01FF, 0x01FE] =
      some (⟨0x1234, 0xFD, 0x00, 0x00, 0x00, 0x00, 6⟩, [0x02, 0x02]) := by
  decide +kernel

/-- R220: STA abs,X crossing a page: no operand read, one write, no extra cycle. -/
theorem test_am25 :
    after (machine 0x0200 0xFF 0x5A 0x01 0x00 0x00 [(0x0200, 0x9D), (0x0201, 0xFF), (0x0202, 0x10)])
        [0x1100] =
      some (⟨0x0203, 0xFF, 0x5A, 0x01, 0x00, 0x00, 5⟩, [0x5A]) := by
  decide +kernel

/-- R275: RTS: pull low then high. -/
theorem test_am26 :
    after (machine 0x0200 0xFD 0x00 0x00 0x00 0x00 [(0x01FE, 0x36), (0x01FF, 0x12), (0x0200, 0x60)])
        [] =
      some (⟨0x1237, 0xFF, 0x00, 0x00, 0x00, 0x00, 6⟩, []) := by
  decide +kernel

/-- R170: TAX sets N. -/
theorem test_rg1 :
    after (machine 0x0200 0xFF 0x80 0x00 0x00 0x00 [(0x0200, 0xAA)])
        [] =
      some (⟨0x0201, 0xFF, 0x80, 0x80, 0x00, 0x80, 2⟩, []) := by
  decide +kernel

/-- R170: TAX sets Z. -/
theorem test_rg2 :
    after (machine 0x0200 0xFF 0x00 0x55 0x00 0x00 [(0x0200, 0xAA)])
        [] =
      some (⟨0x0201, 0xFF, 0x00, 0x00, 0x00, 0x02, 2⟩, []) := by
  decide +kernel

/-- R171: TAY. -/
theorem test_rg3 :
    after (machine 0x0200 0xFF 0x7F 0x00 0x00 0x00 [(0x0200, 0xA8)])
        [] =
      some (⟨0x0201, 0xFF, 0x7F, 0x00, 0x7F, 0x00, 2⟩, []) := by
  decide +kernel

/-- R172: TXA zero. -/
theorem test_rg4 :
    after (machine 0x0200 0xFF 0x11 0x00 0x00 0x00 [(0x0200, 0x8A)])
        [] =
      some (⟨0x0201, 0xFF, 0x00, 0x00, 0x00, 0x02, 2⟩, []) := by
  decide +kernel

/-- R173: TYA negative. -/
theorem test_rg5 :
    after (machine 0x0200 0xFF 0x00 0x00 0xFF 0x00 [(0x0200, 0x98)])
        [] =
      some (⟨0x0201, 0xFF, 0xFF, 0x00, 0xFF, 0x80, 2⟩, []) := by
  decide +kernel

/-- R174: TSX sets Z from SP. -/
theorem test_rg6 :
    after (machine 0x0200 0x00 0x00 0x01 0x00 0x00 [(0x0200, 0xBA)])
        [] =
      some (⟨0x0201, 0x00, 0x00, 0x00, 0x00, 0x02, 2⟩, []) := by
  decide +kernel

/-- R174: TSX negative. -/
theorem test_rg7 :
    after (machine 0x0200 0xFD 0x00 0x00 0x00 0x00 [(0x0200, 0xBA)])
        [] =
      some (⟨0x0201, 0xFD, 0x00, 0xFD, 0x00, 0x80, 2⟩, []) := by
  decide +kernel

/-- R175: TXS: no flags change although X is 0. -/
theorem test_rg8 :
    after (machine 0x0200 0xFF 0x00 0x00 0x00 0x80 [(0x0200, 0x9A)])
        [] =
      some (⟨0x0201, 0x00, 0x00, 0x00, 0x00, 0x80, 2⟩, []) := by
  decide +kernel

/-- R176: INX wraps to 0, Z. -/
theorem test_rg9 :
    after (machine 0x0200 0xFF 0x00 0xFF 0x00 0x00 [(0x0200, 0xE8)])
        [] =
      some (⟨0x0201, 0xFF, 0x00, 0x00, 0x00, 0x02, 2⟩, []) := by
  decide +kernel

/-- R176: INX to 0x80, N. -/
theorem test_rg10 :
    after (machine 0x0200 0xFF 0x00 0x7F 0x00 0x00 [(0x0200, 0xE8)])
        [] =
      some (⟨0x0201, 0xFF, 0x00, 0x80, 0x00, 0x80, 2⟩, []) := by
  decide +kernel

/-- R177: INY. -/
theorem test_rg11 :
    after (machine 0x0200 0xFF 0x00 0x00 0xFE 0x00 [(0x0200, 0xC8)])
        [] =
      some (⟨0x0201, 0xFF, 0x00, 0x00, 0xFF, 0x80, 2⟩, []) := by
  decide +kernel

/-- R178: DEX wraps to 0xFF. -/
theorem test_rg12 :
    after (machine 0x0200 0xFF 0x00 0x00 0x00 0x00 [(0x0200, 0xCA)])
        [] =
      some (⟨0x0201, 0xFF, 0x00, 0xFF, 0x00, 0x80, 2⟩, []) := by
  decide +kernel

/-- R178: DEX to zero. -/
theorem test_rg13 :
    after (machine 0x0200 0xFF 0x00 0x01 0x00 0x00 [(0x0200, 0xCA)])
        [] =
      some (⟨0x0201, 0xFF, 0x00, 0x00, 0x00, 0x02, 2⟩, []) := by
  decide +kernel

/-- R179: DEY to 0x7F. -/
theorem test_rg14 :
    after (machine 0x0200 0xFF 0x00 0x00 0x80 0x00 [(0x0200, 0x88)])
        [] =
      some (⟨0x0201, 0xFF, 0x00, 0x00, 0x7F, 0x00, 2⟩, []) := by
  decide +kernel

/-- R180: CLC clears bit 0 only. -/
theorem test_rg15 :
    after (machine 0x0200 0xFF 0x00 0x00 0x00 0xFF [(0x0200, 0x18)])
        [] =
      some (⟨0x0201, 0xFF, 0x00, 0x00, 0x00, 0xFE, 2⟩, []) := by
  decide +kernel

/-- R181: SEC. -/
theorem test_rg16 :
    after (machine 0x0200 0xFF 0x00 0x00 0x00 0x00 [(0x0200, 0x38)])
        [] =
      some (⟨0x0201, 0xFF, 0x00, 0x00, 0x00, 0x01, 2⟩, []) := by
  decide +kernel

/-- R182: CLI. -/
theorem test_rg17 :
    after (machine 0x0200 0xFF 0x00 0x00 0x00 0xFF [(0x0200, 0x58)])
        [] =
      some (⟨0x0201, 0xFF, 0x00, 0x00, 0x00, 0xFB, 2⟩, []) := by
  decide +kernel

/-- R183: SEI. -/
theorem test_rg18 :
    after (machine 0x0200 0xFF 0x00 0x00 0x00 0x00 [(0x0200, 0x78)])
        [] =
      some (⟨0x0201, 0xFF, 0x00, 0x00, 0x00, 0x04, 2⟩, []) := by
  decide +kernel

/-- R184: CLD. -/
theorem test_rg19 :
    after (machine 0x0200 0xFF 0x00 0x00 0x00 0xFF [(0x0200, 0xD8)])
        [] =
      some (⟨0x0201, 0xFF, 0x00, 0x00, 0x00, 0xF7, 2⟩, []) := by
  decide +kernel

/-- R185: SED. -/
theorem test_rg20 :
    after (machine 0x0200 0xFF 0x00 0x00 0x00 0x00 [(0x0200, 0xF8)])
        [] =
      some (⟨0x0201, 0xFF, 0x00, 0x00, 0x00, 0x08, 2⟩, []) := by
  decide +kernel

/-- R186: CLV. -/
theorem test_rg21 :
    after (machine 0x0200 0xFF 0x00 0x00 0x00 0xFF [(0x0200, 0xB8)])
        [] =
      some (⟨0x0201, 0xFF, 0x00, 0x00, 0x00, 0xBF, 2⟩, []) := by
  decide +kernel

/-- R188: NOP changes PC only. -/
theorem test_rg22 :
    after (machine 0x0200 0xFF 0x12 0x34 0x56 0xA5 [(0x0200, 0xEA)])
        [] =
      some (⟨0x0201, 0xFF, 0x12, 0x34, 0x56, 0xA5, 2⟩, []) := by
  decide +kernel

/-- R200: LDA #0: Z. -/
theorem test_ld1 :
    after (machine 0x0200 0xFF 0x00 0x00 0x00 0x00 [(0x0200, 0xA9)])
        [] =
      some (⟨0x0202, 0xFF, 0x00, 0x00, 0x00, 0x02, 2⟩, []) := by
  decide +kernel

/-- R200: LDA #0x80: N set, Z cleared. -/
theorem test_ld2 :
    after (machine 0x0200 0xFF 0x00 0x00 0x00 0x02 [(0x0200, 0xA9), (0x0201, 0x80)])
        [] =
      some (⟨0x0202, 0xFF, 0x80, 0x00, 0x00, 0x80, 2⟩, []) := by
  decide +kernel

/-- R201: LDX abs,Y crossing 5 cycles. -/
theorem test_ld3 :
    after (machine 0x0200 0xFF 0x00 0x00 0x01 0x00
        [(0x0200, 0xBE), (0x0201, 0xFF), (0x0202, 0x10), (0x1100, 0x7F)])
        [] =
      some (⟨0x0203, 0xFF, 0x00, 0x7F, 0x01, 0x00, 5⟩, []) := by
  decide +kernel

/-- R202: LDY zp,X. -/
theorem test_ld4 :
    after (machine 0x0200 0xFF 0x00 0x03 0x00 0x00 [(0x0013, 0xFF), (0x0200, 0xB4), (0x0201, 0x10)])
        [] =
      some (⟨0x0202, 0xFF, 0x00, 0x03, 0xFF, 0x80, 4⟩, []) := by
  decide +kernel

/-- R203: ADC 0x80+0x80: C=1 Z=1 V=1. -/
theorem test_ld8 :
    after (machine 0x0200 0xFF 0x80 0x00 0x00 0x00 [(0x0200, 0x69), (0x0201, 0x80)])
        [] =
      some (⟨0x0202, 0xFF, 0x00, 0x00, 0x00, 0x43, 2⟩, []) := by
  decide +kernel

/-- R203: ADC with D=1 stays binary: 0x0A (D3). -/
theorem test_ld10 :
    after (machine 0x0200 0xFF 0x09 0x00 0x00 0x08 [(0x0200, 0x69), (0x0201, 0x01)])
        [] =
      some (⟨0x0202, 0xFF, 0x0A, 0x00, 0x00, 0x08, 2⟩, []) := by
  decide +kernel

/-- R204: SBC 0x80-1: 0x7F V=1. -/
theorem test_ld14 :
    after (machine 0x0200 0xFF 0x80 0x00 0x00 0x01 [(0x0200, 0xE9), (0x0201, 0x01)])
        [] =
      some (⟨0x0202, 0xFF, 0x7F, 0x00, 0x00, 0x41, 2⟩, []) := by
  decide +kernel

/-- R204: SBC with C=0 subtracts one more: 0xFF. -/
theorem test_ld15 :
    after (machine 0x0200 0xFF 0x50 0x00 0x00 0x00 [(0x0200, 0xE9), (0x0201, 0x50)])
        [] =
      some (⟨0x0202, 0xFF, 0xFF, 0x00, 0x00, 0x80, 2⟩, []) := by
  decide +kernel

/-- R205: AND to zero. -/
theorem test_ld18 :
    after (machine 0x0200 0xFF 0xF0 0x00 0x00 0x00 [(0x0200, 0x29), (0x0201, 0x0F)])
        [] =
      some (⟨0x0202, 0xFF, 0x00, 0x00, 0x00, 0x02, 2⟩, []) := by
  decide +kernel

/-- R205: AND negative. -/
theorem test_ld19 :
    after (machine 0x0200 0xFF 0xFF 0x00 0x00 0x00 [(0x0200, 0x29), (0x0201, 0x80)])
        [] =
      some (⟨0x0202, 0xFF, 0x80, 0x00, 0x00, 0x80, 2⟩, []) := by
  decide +kernel

/-- R206: ORA zero. -/
theorem test_ld20 :
    after (machine 0x0200 0xFF 0x00 0x00 0x00 0x00 [(0x0200, 0x09)])
        [] =
      some (⟨0x0202, 0xFF, 0x00, 0x00, 0x00, 0x02, 2⟩, []) := by
  decide +kernel

/-- R206: ORA. -/
theorem test_ld21 :
    after (machine 0x0200 0xFF 0x0F 0x00 0x00 0x00 [(0x0200, 0x09), (0x0201, 0x80)])
        [] =
      some (⟨0x0202, 0xFF, 0x8F, 0x00, 0x00, 0x80, 2⟩, []) := by
  decide +kernel

/-- R207: EOR to zero. -/
theorem test_ld22 :
    after (machine 0x0200 0xFF 0xFF 0x00 0x00 0x00 [(0x0200, 0x49), (0x0201, 0xFF)])
        [] =
      some (⟨0x0202, 0xFF, 0x00, 0x00, 0x00, 0x02, 2⟩, []) := by
  decide +kernel

/-- R207: EOR to 0xFF. -/
theorem test_ld23 :
    after (machine 0x0200 0xFF 0x0F 0x00 0x00 0x00 [(0x0200, 0x49), (0x0201, 0xF0)])
        [] =
      some (⟨0x0202, 0xFF, 0xFF, 0x00, 0x00, 0x80, 2⟩, []) := by
  decide +kernel

/-- R208: CMP: source example Compare(0x82,0x1A): C=1 Z=0 N=0. -/
theorem test_ld24 :
    after (machine 0x0200 0xFF 0x82 0x00 0x00 0x00 [(0x0200, 0xC9), (0x0201, 0x1A)])
        [] =
      some (⟨0x0202, 0xFF, 0x82, 0x00, 0x00, 0x01, 2⟩, []) := by
  decide +kernel

/-- R208: CMP equal: C=1 Z=1; V untouched. -/
theorem test_ld26 :
    after (machine 0x0200 0xFF 0x40 0x00 0x00 0x40 [(0x0200, 0xC9), (0x0201, 0x40)])
        [] =
      some (⟨0x0202, 0xFF, 0x40, 0x00, 0x00, 0x43, 2⟩, []) := by
  decide +kernel

/-- R209: CPX zp equal. -/
theorem test_ld29 :
    after (machine 0x0200 0xFF 0x00 0x10 0x00 0x00 [(0x0020, 0x10), (0x0200, 0xE4), (0x0201, 0x20)])
        [] =
      some (⟨0x0202, 0xFF, 0x00, 0x10, 0x00, 0x03, 3⟩, []) := by
  decide +kernel

/-- R210: CPY abs less. -/
theorem test_ld30 :
    after (machine 0x0200 0xFF 0x00 0x00 0x05 0x00
        [(0x0200, 0xCC), (0x0201, 0x34), (0x0202, 0x12), (0x1234, 0x06)])
        [] =
      some (⟨0x0203, 0xFF, 0x00, 0x00, 0x05, 0x80, 4⟩, []) := by
  decide +kernel

/-- R211: BIT: Z=1 (no common bits), V and N from memory. -/
theorem test_ld31 :
    after (machine 0x0200 0xFF 0x01 0x00 0x00 0x00 [(0x0010, 0xC0), (0x0200, 0x24), (0x0201, 0x10)])
        [] =
      some (⟨0x0202, 0xFF, 0x01, 0x00, 0x00, 0xC2, 3⟩, []) := by
  decide +kernel

/-- R211: BIT clears N, V, Z. -/
theorem test_ld32 :
    after (machine 0x0200 0xFF 0xFF 0x00 0x00 0xC2
        [(0x0200, 0x2C), (0x0201, 0x34), (0x0202, 0x12), (0x1234, 0x3F)])
        [] =
      some (⟨0x0203, 0xFF, 0xFF, 0x00, 0x00, 0x00, 4⟩, []) := by
  decide +kernel

/-- R203: ADC (zp),Y crossing: 6 cycles. -/
theorem test_ld34 :
    after (machine 0x0200 0xFF 0x01 0x00 0x01 0x00
        [(0x0010, 0xFF), (0x0011, 0x20), (0x0200, 0x71), (0x0201, 0x10), (0x2100, 0x02)])
        [] =
      some (⟨0x0202, 0xFF, 0x03, 0x00, 0x01, 0x00, 6⟩, []) := by
  decide +kernel

/-- R220: STA abs. -/
theorem test_st1 :
    after (machine 0x0200 0xFF 0x42 0x00 0x00 0x00 [(0x0200, 0x8D), (0x0202, 0x03)])
        [0x0300] =
      some (⟨0x0203, 0xFF, 0x42, 0x00, 0x00, 0x00, 4⟩, [0x42]) := by
  decide +kernel

/-- R220: STA abs,X no crossing: still 5. -/
theorem test_st3 :
    after (machine 0x0200 0xFF 0x42 0x00 0x00 0x00 [(0x0200, 0x9D), (0x0201, 0xFF), (0x0202, 0x10)])
        [0x10FF] =
      some (⟨0x0203, 0xFF, 0x42, 0x00, 0x00, 0x00, 5⟩, [0x42]) := by
  decide +kernel

/-- R220: STA (zp),Y crossing: 6. -/
theorem test_st4 :
    after (machine 0x0200 0xFF 0x99 0x00 0x02 0x00
        [(0x0040, 0xFF), (0x0041, 0x12), (0x0200, 0x91), (0x0201, 0x40)])
        [0x1301] =
      some (⟨0x0202, 0xFF, 0x99, 0x00, 0x02, 0x00, 6⟩, [0x99]) := by
  decide +kernel

/-- R220: STA (zp,X). -/
theorem test_st5 :
    after (machine 0x0200 0xFF 0x77 0x01 0x00 0x00 [(0x0042, 0x03), (0x0200, 0x81), (0x0201, 0x40)])
        [0x0300] =
      some (⟨0x0202, 0xFF, 0x77, 0x01, 0x00, 0x00, 6⟩, [0x77]) := by
  decide +kernel

/-- R221: STX zp,Y wraps to 0x0001. -/
theorem test_st6 :
    after (machine 0x0200 0xFF 0x00 0x07 0x02 0x00 [(0x0200, 0x96), (0x0201, 0xFF)])
        [0x0001] =
      some (⟨0x0202, 0xFF, 0x00, 0x07, 0x02, 0x00, 4⟩, [0x07]) := by
  decide +kernel

/-- R222: STY zp,X. -/
theorem test_st7 :
    after (machine 0x0200 0xFF 0x00 0x01 0x09 0x00 [(0x0200, 0x94), (0x0201, 0x20)])
        [0x0021] =
      some (⟨0x0202, 0xFF, 0x00, 0x01, 0x09, 0x00, 4⟩, [0x09]) := by
  decide +kernel

/-- R223: INC wraps, Z; C untouched. -/
theorem test_st8 :
    after (machine 0x0200 0xFF 0x00 0x00 0x00 0x00 [(0x0010, 0xFF), (0x0200, 0xE6), (0x0201, 0x10)])
        [0x0010] =
      some (⟨0x0202, 0xFF, 0x00, 0x00, 0x00, 0x02, 5⟩, [0x00]) := by
  decide +kernel

/-- R223: INC abs,X: 7 cycles, N, C kept. -/
theorem test_st9 :
    after (machine 0x0200 0xFF 0x00 0x01 0x00 0x01
        [(0x0200, 0xFE), (0x0201, 0xFF), (0x0202, 0x10), (0x1100, 0x7F)])
        [0x1100] =
      some (⟨0x0203, 0xFF, 0x00, 0x01, 0x00, 0x81, 7⟩, [0x80]) := by
  decide +kernel

/-- R224: DEC 0 to 0xFF. -/
theorem test_st10 :
    after (machine 0x0200 0xFF 0x00 0x00 0x00 0x00 [(0x0200, 0xCE), (0x0202, 0x03)])
        [0x0300] =
      some (⟨0x0203, 0xFF, 0x00, 0x00, 0x00, 0x80, 6⟩, [0xFF]) := by
  decide +kernel

/-- R224: DEC zp,X to 0. -/
theorem test_st11 :
    after (machine 0x0200 0xFF 0x00 0x05 0x00 0x00 [(0x0015, 0x01), (0x0200, 0xD6), (0x0201, 0x10)])
        [0x0015] =
      some (⟨0x0202, 0xFF, 0x00, 0x05, 0x00, 0x02, 6⟩, [0x00]) := by
  decide +kernel

/-- R225: JMP abs. -/
theorem test_st12 :
    after (machine 0x0200 0xFF 0x00 0x00 0x00 0x00 [(0x0200, 0x4C), (0x0201, 0x34), (0x0202, 0x12)])
        [] =
      some (⟨0x1234, 0xFF, 0x00, 0x00, 0x00, 0x00, 3⟩, []) := by
  decide +kernel

/-- R225: JMP to itself. -/
theorem test_st13 :
    after (machine 0x0200 0xFF 0x00 0x00 0x00 0x00 [(0x0200, 0x4C), (0x0202, 0x02)])
        [] =
      some (⟨0x0200, 0xFF, 0x00, 0x00, 0x00, 0x00, 3⟩, []) := by
  decide +kernel

/-- R240: ASL A: C=1. -/
theorem test_sh1 :
    after (machine 0x0200 0xFF 0x81 0x00 0x00 0x00 [(0x0200, 0x0A)])
        [] =
      some (⟨0x0201, 0xFF, 0x02, 0x00, 0x00, 0x01, 2⟩, []) := by
  decide +kernel

/-- R240: ASL A: 0, Z, C. -/
theorem test_sh2 :
    after (machine 0x0200 0xFF 0x80 0x00 0x00 0x00 [(0x0200, 0x0A)])
        [] =
      some (⟨0x0201, 0xFF, 0x00, 0x00, 0x00, 0x03, 2⟩, []) := by
  decide +kernel

/-- R240: ASL zp: old C not used. -/
theorem test_sh3 :
    after (machine 0x0200 0xFF 0x00 0x00 0x00 0x01 [(0x0010, 0x40), (0x0200, 0x06), (0x0201, 0x10)])
        [0x0010] =
      some (⟨0x0202, 0xFF, 0x00, 0x00, 0x00, 0x80, 5⟩, [0x80]) := by
  decide +kernel

/-- R240: ASL abs,X 7 cycles. -/
theorem test_sh4 :
    after (machine 0x0200 0xFF 0x00 0x01 0x00 0x00
        [(0x0200, 0x1E), (0x0201, 0xFF), (0x0202, 0x10), (0x1100, 0xFF)])
        [0x1100] =
      some (⟨0x0203, 0xFF, 0x00, 0x01, 0x00, 0x81, 7⟩, [0xFE]) := by
  decide +kernel

/-- R241: LSR A: 0, Z, C. -/
theorem test_sh5 :
    after (machine 0x0200 0xFF 0x01 0x00 0x00 0x00 [(0x0200, 0x4A)])
        [] =
      some (⟨0x0201, 0xFF, 0x00, 0x00, 0x00, 0x03, 2⟩, []) := by
  decide +kernel

/-- R241: LSR clears N. -/
theorem test_sh6 :
    after (machine 0x0200 0xFF 0xFF 0x00 0x00 0x80 [(0x0200, 0x4A)])
        [] =
      some (⟨0x0201, 0xFF, 0x7F, 0x00, 0x00, 0x01, 2⟩, []) := by
  decide +kernel

/-- R241: LSR abs. -/
theorem test_sh7 :
    after (machine 0x0200 0xFF 0x00 0x00 0x00 0x00 [(0x0200, 0x4E), (0x0202, 0x03), (0x0300, 0x02)])
        [0x0300] =
      some (⟨0x0203, 0xFF, 0x00, 0x00, 0x00, 0x00, 6⟩, [0x01]) := by
  decide +kernel

/-- R242: ROL A: C in to bit 0, bit 7 out. -/
theorem test_sh8 :
    after (machine 0x0200 0xFF 0x80 0x00 0x00 0x01 [(0x0200, 0x2A)])
        [] =
      some (⟨0x0201, 0xFF, 0x01, 0x00, 0x00, 0x01, 2⟩, []) := by
  decide +kernel

/-- R242: ROL A: 0, Z, C. -/
theorem test_sh9 :
    after (machine 0x0200 0xFF 0x80 0x00 0x00 0x00 [(0x0200, 0x2A)])
        [] =
      some (⟨0x0201, 0xFF, 0x00, 0x00, 0x00, 0x03, 2⟩, []) := by
  decide +kernel

/-- R242: ROL zp: 0x81, C=0, N. -/
theorem test_sh10 :
    after (machine 0x0200 0xFF 0x00 0x00 0x00 0x01 [(0x0010, 0x40), (0x0200, 0x26), (0x0201, 0x10)])
        [0x0010] =
      some (⟨0x0202, 0xFF, 0x00, 0x00, 0x00, 0x80, 5⟩, [0x81]) := by
  decide +kernel

/-- R243: ROR A: 0x80 C=1 N. -/
theorem test_sh11 :
    after (machine 0x0200 0xFF 0x01 0x00 0x00 0x01 [(0x0200, 0x6A)])
        [] =
      some (⟨0x0201, 0xFF, 0x80, 0x00, 0x00, 0x81, 2⟩, []) := by
  decide +kernel

/-- R243: ROR A: 0 Z C. -/
theorem test_sh12 :
    after (machine 0x0200 0xFF 0x01 0x00 0x00 0x00 [(0x0200, 0x6A)])
        [] =
      some (⟨0x0201, 0xFF, 0x00, 0x00, 0x00, 0x03, 2⟩, []) := by
  decide +kernel

/-- R243: ROR abs,X 7 cycles. -/
theorem test_sh13 :
    after (machine 0x0200 0xFF 0x00 0x00 0x00 0x00 [(0x0200, 0x7E), (0x0202, 0x03), (0x0300, 0x02)])
        [0x0300] =
      some (⟨0x0203, 0xFF, 0x00, 0x00, 0x00, 0x00, 7⟩, [0x01]) := by
  decide +kernel

/-- R243: ROR zp,X: C into bit 7. -/
theorem test_sh14 :
    after (machine 0x0200 0xFF 0x00 0x03 0x00 0x01 [(0x0200, 0x76), (0x0201, 0x10)])
        [0x0013] =
      some (⟨0x0202, 0xFF, 0x00, 0x03, 0x00, 0x80, 6⟩, [0x80]) := by
  decide +kernel

/-- R251: BCC taken same page: 3. -/
theorem test_br1 :
    after (machine 0x0200 0xFF 0x00 0x00 0x00 0x00 [(0x0200, 0x90), (0x0201, 0x02)])
        [] =
      some (⟨0x0204, 0xFF, 0x00, 0x00, 0x00, 0x00, 3⟩, []) := by
  decide +kernel

/-- R251: BCC not taken: 2. -/
theorem test_br2 :
    after (machine 0x0200 0xFF 0x00 0x00 0x00 0x01 [(0x0200, 0x90), (0x0201, 0x02)])
        [] =
      some (⟨0x0202, 0xFF, 0x00, 0x00, 0x00, 0x01, 2⟩, []) := by
  decide +kernel

/-- R252: BCS to itself. -/
theorem test_br3 :
    after (machine 0x0200 0xFF 0x00 0x00 0x00 0x01 [(0x0200, 0xB0), (0x0201, 0xFE)])
        [] =
      some (⟨0x0200, 0xFF, 0x00, 0x00, 0x00, 0x01, 3⟩, []) := by
  decide +kernel

/-- R253: BEQ crossing forward: 4. -/
theorem test_br4 :
    after (machine 0x02F0 0xFF 0x00 0x00 0x00 0x02 [(0x02F0, 0xF0), (0x02F1, 0x20)])
        [] =
      some (⟨0x0312, 0xFF, 0x00, 0x00, 0x00, 0x02, 4⟩, []) := by
  decide +kernel

/-- R255: BMI max forward. -/
theorem test_br6 :
    after (machine 0x0200 0xFF 0x00 0x00 0x00 0x80 [(0x0200, 0x30), (0x0201, 0x7F)])
        [] =
      some (⟨0x0281, 0xFF, 0x00, 0x00, 0x00, 0x80, 3⟩, []) := by
  decide +kernel

/-- R256: BPL max backward, other page: 4. -/
theorem test_br7 :
    after (machine 0x0200 0xFF 0x00 0x00 0x00 0x00 [(0x0200, 0x10), (0x0201, 0x80)])
        [] =
      some (⟨0x0182, 0xFF, 0x00, 0x00, 0x00, 0x00, 4⟩, []) := by
  decide +kernel

/-- R257: BVC wraps past 0xFFFF: 4. -/
theorem test_br8 :
    after (machine 0xFFFD 0xFF 0x00 0x00 0x00 0x00 [(0xFFFD, 0x50), (0xFFFE, 0x05)])
        [] =
      some (⟨0x0004, 0xFF, 0x00, 0x00, 0x00, 0x00, 4⟩, []) := by
  decide +kernel

/-- R258: BVS not taken. -/
theorem test_br9 :
    after (machine 0x0200 0xFF 0x00 0x00 0x00 0x00 [(0x0200, 0x70), (0x0201, 0x10)])
        [] =
      some (⟨0x0202, 0xFF, 0x00, 0x00, 0x00, 0x00, 2⟩, []) := by
  decide +kernel

/-- R258: BVS taken offset 0: 3 cycles, PC = next. -/
theorem test_br10 :
    after (machine 0x0200 0xFF 0x00 0x00 0x00 0x40 [(0x0200, 0x70)])
        [] =
      some (⟨0x0202, 0xFF, 0x00, 0x00, 0x00, 0x40, 3⟩, []) := by
  decide +kernel

/-- R254: BNE at page end, offset 0: next instruction at 0x0300, target 0x0300: same page …. -/
theorem test_br11 :
    after (machine 0x02FE 0xFF 0x00 0x00 0x00 0x00 [(0x02FE, 0xD0)])
        [] =
      some (⟨0x0300, 0xFF, 0x00, 0x00, 0x00, 0x00, 3⟩, []) := by
  decide +kernel

/-- R254: BNE: next instruction 0x02FF, target 0x0300: 4 cycles. -/
theorem test_br12 :
    after (machine 0x02FD 0xFF 0x00 0x00 0x00 0x00 [(0x02FD, 0xD0), (0x02FE, 0x01)])
        [] =
      some (⟨0x0300, 0xFF, 0x00, 0x00, 0x00, 0x00, 4⟩, []) := by
  decide +kernel

/-- R253: BEQ from 0x0000 backward wraps to 0xFFFE: 4. -/
theorem test_br13 :
    after (machine 0x0000 0xFF 0x00 0x00 0x00 0x02 [(0x0000, 0xF0), (0x0001, 0xFC)])
        [] =
      some (⟨0xFFFE, 0xFF, 0x00, 0x00, 0x00, 0x02, 4⟩, []) := by
  decide +kernel

/-- R270: PHA. -/
theorem test_sk1 :
    after (machine 0x0200 0xFF 0x42 0x00 0x00 0x00 [(0x0200, 0x48)])
        [0x01FF] =
      some (⟨0x0201, 0xFE, 0x42, 0x00, 0x00, 0x00, 3⟩, [0x42]) := by
  decide +kernel

/-- R270: PHA at SP=0: writes 0x0100, SP wraps to 0xFF. -/
theorem test_sk2 :
    after (machine 0x0200 0x00 0x42 0x00 0x00 0x00 [(0x0200, 0x48)])
        [0x0100] =
      some (⟨0x0201, 0xFF, 0x42, 0x00, 0x00, 0x00, 3⟩, [0x42]) := by
  decide +kernel

/-- R271: PLA zero. -/
theorem test_sk3 :
    after (machine 0x0200 0xFE 0x55 0x00 0x00 0x00 [(0x0200, 0x68)])
        [] =
      some (⟨0x0201, 0xFF, 0x00, 0x00, 0x00, 0x02, 4⟩, []) := by
  decide +kernel

/-- R271: PLA at SP=0xFF reads 0x0100, SP=0. -/
theorem test_sk4 :
    after (machine 0x0200 0xFF 0x00 0x00 0x00 0x00 [(0x0100, 0x80), (0x0200, 0x68)])
        [] =
      some (⟨0x0201, 0x00, 0x80, 0x00, 0x00, 0x80, 4⟩, []) := by
  decide +kernel

/-- R272: PHP pushes P with bits 4,5 set; P unchanged. -/
theorem test_sk5 :
    after (machine 0x0200 0xFF 0x00 0x00 0x00 0x81 [(0x0200, 0x08)])
        [0x01FF] =
      some (⟨0x0201, 0xFE, 0x00, 0x00, 0x00, 0x81, 3⟩, [0xB1]) := by
  decide +kernel

/-- R272: PHP with stored bits 4,5 set. -/
theorem test_sk6 :
    after (machine 0x0200 0xFF 0x00 0x00 0x00 0x30 [(0x0200, 0x08)])
        [0x01FF] =
      some (⟨0x0201, 0xFE, 0x00, 0x00, 0x00, 0x30, 3⟩, [0x30]) := by
  decide +kernel

/-- R273: PLP: stored bits 4,5 keep 0. -/
theorem test_sk7 :
    after (machine 0x0200 0xFE 0x00 0x00 0x00 0x00 [(0x01FF, 0xFF), (0x0200, 0x28)])
        [] =
      some (⟨0x0201, 0xFF, 0x00, 0x00, 0x00, 0xCF, 4⟩, []) := by
  decide +kernel

/-- R273: PLP: stored bits 4,5 keep 1. -/
theorem test_sk8 :
    after (machine 0x0200 0xFE 0x00 0x00 0x00 0x30 [(0x0200, 0x28)])
        [] =
      some (⟨0x0201, 0xFF, 0x00, 0x00, 0x00, 0x30, 4⟩, []) := by
  decide +kernel

/-- R274: JSR across page: pushes 0x0300. -/
theorem test_sk10 :
    after (machine 0x02FE 0xFF 0x00 0x00 0x00 0x00 [(0x02FE, 0x20), (0x0300, 0x40)])
        [0x01FF, 0x01FE] =
      some (⟨0x4000, 0xFD, 0x00, 0x00, 0x00, 0x00, 6⟩, [0x03, 0x00]) := by
  decide +kernel

/-- R275: RTS pulled 0xFFFF: PC 0x0000. -/
theorem test_sk12 :
    after (machine 0x0200 0xFD 0x00 0x00 0x00 0x00 [(0x01FE, 0xFF), (0x01FF, 0xFF), (0x0200, 0x60)])
        [] =
      some (⟨0x0000, 0xFF, 0x00, 0x00, 0x00, 0x00, 6⟩, []) := by
  decide +kernel

/-- R276: BRK. -/
theorem test_sk13 :
    after (machine 0x0200 0xFF 0x00 0x00 0x00 0x00 [(0xFFFF, 0x90)])
        [0x01FF, 0x01FE, 0x01FD] =
      some (⟨0x9000, 0xFC, 0x00, 0x00, 0x00, 0x04, 7⟩, [0x02, 0x02, 0x30]) := by
  decide +kernel

/-- R276: BRK with SP=1: stack wraps 0x0101, 0x0100, 0x01FF. -/
theorem test_sk14 :
    after (machine 0x0200 0x01 0x00 0x00 0x00 0xCB [(0xFFFE, 0x34), (0xFFFF, 0x12)])
        [0x0101, 0x0100, 0x01FF] =
      some (⟨0x1234, 0xFE, 0x00, 0x00, 0x00, 0xCF, 7⟩, [0x02, 0x02, 0xFB]) := by
  decide +kernel

/-- R277: RTI from the frame of T-SK13. -/
theorem test_sk15 :
    after (machine 0x0200 0xFC 0x00 0x00 0x00 0x04
        [(0x01FD, 0x30), (0x01FE, 0x02), (0x01FF, 0x02), (0x0200, 0x40)])
        [] =
      some (⟨0x0202, 0xFF, 0x00, 0x00, 0x00, 0x00, 6⟩, []) := by
  decide +kernel

/-- R277: RTI: no +1; stored bits 4,5 keep 1. -/
theorem test_sk16 :
    after (machine 0x0200 0xFC 0x00 0x00 0x00 0x34 [(0x01FD, 0xC3), (0x01FF, 0x80), (0x0200, 0x40)])
        [] =
      some (⟨0x8000, 0xFF, 0x00, 0x00, 0x00, 0xF3, 6⟩, []) := by
  decide +kernel

/-- R122: source example: byte 0x02. -/
theorem test_uk1 :
    after (machine 0x0200 0xFF 0x00 0x00 0x00 0x00 [(0x0200, 0x02)])
        [] =
      some (⟨0x0201, 0xFF, 0x00, 0x00, 0x00, 0x00, 1⟩, []) := by
  decide +kernel

/-- R122: 0xFF followed by two bytes: one byte, one cycle; the two bytes are not consumed. -/
theorem test_uk2 :
    after (machine 0x0200 0xFF 0x11 0x00 0x00 0xFF [(0x0200, 0xFF), (0x0202, 0x10)])
        [] =
      some (⟨0x0201, 0xFF, 0x11, 0x00, 0x00, 0xFF, 1⟩, []) := by
  decide +kernel

/-! ## Interrupt polls, stop conditions, mappings and reset: further vectors of file 95 -/

/-- The operation answers, and its result and state pass the check. -/
def answers {α : Type} (op : Op α) (s : State) (check : α → State → Bool) : Bool :=
  match op s with
  | .ok (v, t) => check v t
  | .error _ => false

/-- The operation ends with a fault that passes the check. -/
def stops {α : Type} (op : Op α) (s : State) (check : Fault → Bool) : Bool :=
  match op s with
  | .ok _ => false
  | .error f => check f

/-- The memory access a fault names. -/
def faultAccess : Fault → Option (Nat × AccessKind)
  | .invalidMemoryAccess addr kind _ _ => some (addr, kind)
  | .unknownOpcode _ _ _ => none
  | .configuration _ _ => none

/-- The start state of the T-INT vectors: NMI handler at `$8100`, IRQ handler at `$8000`. -/
def interrupted (pc : Word) (sp p : Byte) (irq : List IrqSource) (nmi : List String) : State :=
  { machine pc sp 0 0 0 p [(0xFFFB, 0x81), (0xFFFF, 0x80)] with irq := irq, nmi := nmi }

/-- What a T-INT vector says after `Poll()`. -/
def polled (s : State) (pc : Word) (sp p : Byte) (pushed : List (Nat × Byte)) (irq nmi : List String)
    (cycles : Nat) : Bool :=
  answers poll s fun _ t => t.pc == pc && t.sp == sp && t.p == p &&
    pushed.all (fun c => t.mem.byteAt c.1 == c.2) && t.irq.map IrqSource.name == irq && t.nmi == nmi &&
    t.call.cyclesConsumed == cycles && t.lifetime.cyclesConsumed == cycles

/-- T-INT1: IRQ, I clear, auto-acknowledge. -/
theorem test_int1 : polled (interrupted 0x0203 0xFF 0x01 [⟨"timer", true⟩] []) 0x8000 0xFC 0x05
    [(0x01FF, 0x02), (0x01FE, 0x03), (0x01FD, 0x21)] [] [] 7 = true := by
  decide +kernel

/-- T-INT4: both asserted, I clear: NMI first, IRQ remains pending. -/
theorem test_int4 : polled (interrupted 0x0203 0xFF 0x00 [⟨"timer", true⟩] ["vblank"]) 0x8100 0xFC 0x04
    [(0x01FF, 0x02), (0x01FE, 0x03), (0x01FD, 0x20)] ["timer"] [] 7 = true := by
  decide +kernel

/-- T-INT5: every auto-acknowledge source is removed, the manual one stays. -/
theorem test_int5 : polled
    (interrupted 0x0203 0xFF 0x00 [⟨"timer", true⟩, ⟨"via", false⟩, ⟨"uart", true⟩] []) 0x8000 0xFC 0x04
    [(0x01FF, 0x02), (0x01FE, 0x03), (0x01FD, 0x20)] ["via"] [] 7 = true := by
  decide +kernel

/-- T-INT8: the stack wraps during entry; the pushed P has bit 4 clear and bit 5 set. -/
theorem test_int8 : polled (interrupted 0xC123 0x01 0xDB [] ["vblank"]) 0x8100 0xFE 0xDF
    [(0x0101, 0xC1), (0x0100, 0x23), (0x01FF, 0xEB)] [] [] 7 = true := by
  decide +kernel

/-- The call ended by the step, with these reasons. -/
def stoppedBy (s : State) : Option (List StopReason) :=
  match step s with
  | .next t => if t.inCall then none else some t.stopReasons
  | .fault _ => none
  | .refused _ => none

/-- T-RUN6: BRK costs 7 against a budget of 1. -/
theorem test_run6 : stoppedBy { machine 0x0200 0xFF 0 0 0 0 [(0xFFFF, 0x90)] with
    options := { ExecutionOptions.none with cycleBudget := some 1 } } = some [.cycleBudget] := by
  decide +kernel

/-- T-RUN8: JMP to itself. -/
theorem test_run8 : stoppedBy { machine 0x0200 0xFF 0 0 0 0 [(0x0200, 0x4C), (0x0202, 0x02)] with
    options := { ExecutionOptions.none with stopAtPC := some 0x0200 } } = some [.pcReached] := by
  decide +kernel

/-- A fresh memory (T-MEM): nothing mapped, `rom = [0x11, 0x22, 0x33, 0x44]` at backing index 80000. -/
def fresh : State :=
  { State.reset with mem := { Memory.flatRam with
      cells := [(80000, 0x11), (80001, 0x22), (80002, 0x33), (80003, 0x44)], maps := [] } }

/-- T-MEM1: a read of an unmapped address faults. -/
theorem test_mem1 :
    stops (memRead 0x1234) fresh (fun f => faultAccess f == some (0x1234, .read)) = true := by
  decide +kernel

/-- T-MEM5, last read: the RAM under the ROM holds what was written. -/
theorem test_mem5 :
    answers (do
      mapRam none 0xA000 ⟨0, 4⟩ 0 none
      mapRom none 0xA000 ⟨80000, 4⟩
      memWrite 0xA001 0x77
      let b ← memRead 0xA001
      mapRam none 0xA000 ⟨0, 4⟩ 0 none
      let c ← memRead 0xA001
      pure (b, c)) fresh (fun r _ => r == (0x22, 0x77)) = true := by
  decide +kernel

/-- T-MEM9: a Read register leaves the RAM write-hook in place. -/
theorem test_mem9 :
    answers (do
      mapRam none 0 ⟨0, 65536⟩ 0 none
      modifyMem fun m => m.store 70000 0x3C
      mapRegister none 0xD020 70000 .read
      memWrite 0xD020 0x01
      memRead 0xD020) fresh (fun r t => r == 0x3C && t.mem.byteAt 0xD020 == 0x01) = true := by
  decide +kernel

/-- T-MEM12: the high byte of the word at `$FFFE` is unmapped. -/
theorem test_mem12 :
    stops (do
      mapRam none 0 ⟨0, 0xFFFF⟩ 0 none
      memReadWord 0xFFFE) fresh (fun f => faultAccess f == some (0xFFFF, .read)) = true := by
  decide +kernel

/-- T-RST1: reset loads PC from the vector and leaves the registers. -/
theorem test_rst1 :
    answers (resetMachine none) (machine 0x1111 0x78 0x12 0x34 0x56 0xA5 [(0xFFFD, 0xC0)])
      (fun _ t => t.pc == 0xC000 && t.a == 0x12 && t.x == 0x34 && t.y == 0x56 && t.sp == 0x78 &&
        t.p == 0xA5) = true := by
  decide +kernel

/-- T-RST4: reset with nothing mapped at the vector faults and leaves PC. -/
theorem test_rst4 :
    stops (resetMachine none) { fresh with pc := 0x1234 }
      (fun f => faultAccess f == some (0xFFFC, .read) && f.left.pc == 0x1234) = true := by
  decide +kernel

/-- T-RUN14, its last step: the fatal fault after the fold, with the counters it leaves. -/
theorem test_run14 :
    (match step { machine 0x0202 0xFF 0x05 0 0 0 [(0x0202, 0x02)] with
        lifetime := ⟨2, 1, 0, some 0xA9, some 0x0200⟩
        options := { ExecutionOptions.none with unknownInstructionIsFatal := true } } with
      | .fault (.unknownOpcode op pc t) => op == 0x02 && pc == 0x0202 && t.pc == 0x0203 &&
          t.a == 0x05 && t.lifetime == ⟨3, 2, 1, some 0x02, some 0x0202⟩
      | _ => false) = true := by
  decide +kernel

/-- R53, R340: the write-hook receives the byte, the read-hook answers by the address it is installed
at, and both invocations are recorded, newest first. -/
theorem test_device_receives_the_byte :
    answers (do
      mapDevice none 0xD020 2 7 .readWrite
      memWrite 0xD020 0x77
      memRead 0xD021)
      { fresh with replies := [⟨[], ⟨0, []⟩⟩,
          ⟨[(.read 7 0xD020, ⟨0x11, []⟩), (.read 7 0xD021, ⟨0x5A, []⟩)], ⟨0, []⟩⟩] }
      (fun r t => r == 0x5A && t.hookCalls == [.read 7 0xD021, .write 7 0xD020 0x77]) = true := by
  decide +kernel

/-- R343: a hook reads RAM through the mapping, and a read of what is unmapped faults in it. -/
theorem test_hook_reads_through_the_mapping :
    answers (do
      mapRam none 0 ⟨80000, 4⟩ 0 none
      mapDevice none 0xD020 1 7 .read
      memRead 0xD020) { fresh with replies := [⟨[], ⟨0x5A, [.memRead 0x0002]⟩⟩] }
      (fun r t => r == 0x5A && t.hostBytes == [0x33]) = true ∧
    stops (do
      mapDevice none 0xD020 1 7 .read
      memRead 0xD020) { fresh with replies := [⟨[], ⟨0x5A, [.memRead 0x0002]⟩⟩] }
      (fun f => faultAccess f == some (0x0002, .read)) = true := by
  decide +kernel

/-! ## Other instruction tables (30_encoding.md R94, 00_scope.md R8) -/

/-- A machine at `$0200` whose table is one row, given its bytes. -/
def withRow (row : TableRow) (cells : List Host.Cell) : State :=
  { machine 0x0200 0xFF 0 0x01 0 0 cells with config := { Config.default with table := [row] } }

/-- `$02` registered as LDA Immediate with 3 cycles runs R200. -/
theorem test_table_moves_a_mnemonic :
    after (withRow ⟨0x02, .documented .lda, .immediate, 2, 3, 0, false⟩ [(0x0200, 0x02), (0x0201, 0x80)]) [] =
      some (⟨0x0202, 0xFF, 0x80, 0x01, 0x00, 0x80, 3⟩, []) := by
  decide +kernel

/-- INX in Absolute X mode: X + 1, three bytes, and the crossing paid (R125, R160). -/
theorem test_table_gives_another_mode :
    after (withRow ⟨0xE8, .documented .inx, .absoluteX, 3, 2, 1, false⟩
        [(0x0200, 0xE8), (0x0201, 0xFF), (0x0202, 0x10)]) [] =
      some (⟨0x0203, 0xFF, 0x00, 0x02, 0x00, 0x00, 3⟩, []) := by
  decide +kernel

/-- How a step is refused. -/
def refusalOf (s : State) : Option Refusal :=
  match step s with
  | .next _ => none
  | .fault _ => none
  | .refused r => some r

/-- A platform's own behavior (R99), and a store in a mode without an address. -/
theorem test_table_refusals :
    refusalOf (withRow ⟨0x02, .platform "KIL", .implied, 1, 2, 0, false⟩ [(0x0200, 0x02)]) =
      some (.unspecifiedOpcode 0x02 0x0200) ∧
    refusalOf (withRow ⟨0x89, .documented .sta, .immediate, 2, 2, 0, false⟩ [(0x0200, 0x89)]) =
      some (.missingOperand 0x89 0x0200) := by
  decide +kernel

/-- 20_memory.md R76: on the default platform every address is RAM, at its own backing byte. -/
theorem machine_ramAt (pc : Word) (sp a x y p : Byte) (cells : List Host.Cell) (b : Word) :
    (machine pc sp a x y p cells).RamAt b b.toNat := by
  have h := b.isLt
  simp [State.RamAt, State.readSlot, State.writeSlot, Memory.readSlot, Memory.writeSlot, machine,
    State.reset, Memory.flatRam, Mapping.covers, Config.default, Backing.slot, h]

theorem machine_allRam (pc : Word) (sp a x y p : Byte) (cells : List Host.Cell) :
    (machine pc sp a x y p cells).AllRam := fun b =>
  ⟨⟨_, (machine_ramAt pc sp a x y p cells b).1⟩, ⟨_, (machine_ramAt pc sp a x y p cells b).2⟩⟩

/-- State.reset is RAM throughout. -/
theorem reset_allRam : State.reset.AllRam := machine_allRam 0 0xFF 0 0 0 0 []

/-! ## Witnesses: the hypotheses of each statement are met

A name `witness_<Obligation>` belongs to that statement; a statement of several clauses has a witness
for each, at the edge of its range where it has one. -/

theorem exists_of_answers {α : Type} {op : Op α} {s : State} {check : α → State → Bool}
    (h : answers op s check = true) : ∃ v t, op s = .ok (v, t) ∧ check v t = true := by
  unfold answers at h
  split at h
  · rename_i v t heq
    exact ⟨v, t, heq, h⟩
  · cases h

theorem exists_of_stops {α : Type} {op : Op α} {s : State} {check : Fault → Bool}
    (h : stops op s check = true) : ∃ f, op s = .error f ∧ check f = true := by
  unfold stops at h
  split at h
  · cases h
  · rename_i f heq
    exact ⟨f, heq, h⟩

/-- The instruction has a next state that passes the check. -/
def executes (i : Instr) (s : State) (check : State → Bool) : Bool :=
  match exec i s with
  | .next t => check t
  | .fault _ => false
  | .refused _ => false

theorem exists_of_executes {i : Instr} {s : State} {check : State → Bool}
    (h : executes i s check = true) : ∃ t, exec i s = .next t ∧ check t = true := by
  unfold executes at h
  split at h
  · rename_i t heq
    exact ⟨t, heq, h⟩
  · cases h
  · cases h

/-- A platform with 32 KB of address space and two configurations: RAM at `$0000`-`$1FFF`, ROM at
`$2000`-`$20FF`, a device at `$3000`-`$30FF`, a two-bank segment at `$5000`-`$50FF`, the rest
unmapped. The host's script has two replies, the first with a case for a read of `$30FF`, the second
with an action that is an error. -/
def lab : State :=
  { State.reset with
    config := { Config.default with memSize := 0x8000, numConfigs := 2 }
    mem := { cells := [(0x10, 0x34), (0x11, 0x12), (0x21, 0x30), (0x10000, 0xEA)]
             maps := [⟨0, 0x2000, 0x100, some (.bytes 0x10000), none⟩,
               ⟨0, 0x3000, 0x100, some (.device 1), some (.device 1)⟩,
               ⟨0, 0x5000, 0x100, some (.segment 0), some (.segment 0)⟩,
               ⟨0, 0, 0x2000, some (.bytes 0), some (.bytes 0)⟩]
             segments := [⟨"bank", 0x5000, 0x100, [0x20000, 0x20100], 0⟩]
             cfg := 0 }
    replies := [⟨[(.read 1 0x30FF, ⟨0x77, []⟩)], ⟨0x99, [.setConfiguration 1]⟩⟩,
      ⟨[], ⟨0x00, [.setConfiguration 2]⟩⟩] }

/-- `lab` where the next hook invocation makes a configuration error. -/
def labError : State := { lab with replies := [⟨[], ⟨0x00, [.setConfiguration 2]⟩⟩] }

/-- `lab` with `ROM_WRITE_POLICY = fault`. -/
def labRomFault : State := { lab with config := { lab.config with romWritePolicy := .fault } }

/-- `lab` with RAM on the stack page from `$0180` on only, so that a push with SP at `$80` and a pull
with SP at `$FE` fault on the second byte. -/
def halfStack (sp : Byte) : State :=
  { lab with sp := sp, mem := { lab.mem with maps := [⟨0, 0x0180, 0x80, some (.bytes 0x0180), some (.bytes 0x0180)⟩] } }

/-- Nothing is mapped. -/
def bare : State := { machine 0x0200 0xFF 0x11 0x22 0x33 0 [] with mem := { Memory.flatRam with maps := [] } }

/-! ### Encoding, flags -/

theorem witness_DecodeAndEncodeAgree :
    decode [0xA9#8, 0x10#8, 0x20#8] = .ok (.ldaImm 0x10#8, [0x20#8]) := rfl

theorem witness_ShiftAndRotateHelpers : Flag.i ≠ .c ∧ Flag.i ≠ .z ∧ Flag.i ≠ .n := by decide

theorem witness_FlagHelpersWriteTheirFlags :
    (Flag.c ≠ .z ∧ Flag.c ≠ .n) ∧
    ((compareBytes 0x80#8 0x00#8).status 0x30#8 = 0xB1#8 ∧ Flag.v ≠ .c ∧ Flag.v ≠ .z ∧ Flag.v ≠ .n) ∧
    (Flag.c ≠ .z ∧ Flag.c ≠ .v ∧ Flag.c ≠ .n) := by
  decide

/-! ### Memory -/

/-- Above MEM_SIZE, unmapped, a RAM byte, a device. -/
theorem witness_ReadInvokesTheReadHook :
    lab.config.memSize ≤ (0x8000#16).toNat ∧
    (lab.mem.readSlot (0x4000#16).toNat = none ∧ (0x4000#16).toNat < lab.config.memSize) ∧
    ((0x1FFF#16).toNat < lab.config.memSize ∧
      lab.mem.readSlot (0x1FFF#16).toNat = some (.byte 0x1FFF)) ∧
    ((0x3000#16).toNat < lab.config.memSize ∧ lab.mem.readSlot (0x3000#16).toNat = some (.device 1)) := by
  decide +kernel

/-- Above MEM_SIZE, unmapped, a RAM byte, a device, ROM under both policies. -/
theorem witness_WriteInvokesTheWriteHook :
    lab.config.memSize ≤ (0x8000#16).toNat ∧
    (lab.mem.readSlot (0x4000#16).toNat = none ∧ lab.mem.writeSlot (0x4000#16).toNat = none) ∧
    ((0x1FFF#16).toNat < lab.config.memSize ∧
      lab.mem.writeSlot (0x1FFF#16).toNat = some (.byte 0x1FFF)) ∧
    ((0x3000#16).toNat < lab.config.memSize ∧ lab.mem.writeSlot (0x3000#16).toNat = some (.device 1)) ∧
    ((0x2000#16).toNat < lab.config.memSize ∧ lab.mem.writeSlot (0x2000#16).toNat = none ∧
      lab.mem.readSlot (0x2000#16).toNat ≠ none ∧ lab.config.romWritePolicy = .ignore ∧
      labRomFault.config.romWritePolicy = .fault) := by
  decide +kernel

/-- A write-hook that answers, and one that makes a configuration error. -/
theorem witness_WriteInvokesTheWriteHook_device :
    (∃ b t, invokeHook (.write 1 0x3000 0x55) lab = .ok (b, t)) ∧
    (∃ f, invokeHook (.write 1 0x3000 0x55) labError = .error f) :=
  ⟨⟨_, _, rfl⟩, _, rfl⟩

/-- A word across RAM and ROM; a fault on its first and on its second byte; the word at `$FFFF`, which
wraps to `$0000`. -/
theorem witness_WordsAreLittleEndian :
    (∃ lo hi s1 s2, memRead 0x1FFF lab = .ok (lo, s1) ∧ memRead (0x1FFF + 1) s1 = .ok (hi, s2)) ∧
    (∃ f, memRead 0x4000 lab = .error f) ∧
    (∃ lo s1 f, memRead 0x20FF lab = .ok (lo, s1) ∧ memRead (0x20FF + 1) s1 = .error f) ∧
    (∃ s1 s2, memWrite 0x1FFE (BitVec.ofNat 8 ((0xABCD#16).toNat % 256)) lab = .ok ((), s1) ∧
      memWrite (0x1FFE + 1) (BitVec.ofNat 8 ((0xABCD#16).toNat / 256)) s1 = .ok ((), s2)) ∧
    (∃ f, memWrite 0x4000 (BitVec.ofNat 8 ((0xABCD#16).toNat % 256)) lab = .error f) ∧
    (∃ s1 f, memWrite 0x1FFF (BitVec.ofNat 8 ((0xABCD#16).toNat % 256)) labRomFault = .ok ((), s1) ∧
      memWrite (0x1FFF + 1) (BitVec.ofNat 8 ((0xABCD#16).toNat / 256)) s1 = .error f) ∧
    (State.reset.mem.wf = true ∧ State.reset.RamAt 0xFFFF 0xFFFF ∧ State.reset.RamAt (0xFFFF + 1) 0 ∧
      0xFFFF ≠ 0) := by
  refine ⟨⟨_, _, _, _, rfl, rfl⟩, ⟨_, rfl⟩, ⟨_, _, _, rfl, rfl⟩, ⟨_, _, rfl, rfl⟩, ⟨_, rfl⟩, ⟨_, _, rfl, rfl⟩,
    rfl, ?_, ?_, by decide⟩
  · exact machine_ramAt 0 0xFF 0 0 0 0 [] 0xFFFF
  · exact machine_ramAt 0 0xFF 0 0 0 0 [] 0

theorem witness_BackingBytesReadAfterWrite :
    Memory.flatRam.wf = true ∧ (Memory.flatRam.store 3 0x05).wf = true ∧
    ((Memory.flatRam.store 3 0x01).store 3 0x05).wf = true ∧
    ∀ j, (Memory.flatRam.store 3 0x05).byteAt j = ((Memory.flatRam.store 3 0x01).store 3 0x05).byteAt j :=
  ⟨rfl, rfl, rfl, fun _ => rfl⟩

/-- A range that ends at MEM_SIZE and at the end of its array, and one a byte further on; a register
at the last address and one beyond it; targets in and out of NUM_CONFIGS, one that maps and one that
is an error. -/
theorem witness_MappingsReplaceTheHooksTheyName :
    (4 + 12 = (BackingArray.mk 0x30000 16).size ∧ 0x7FF4 + 12 ≤ lab.config.memSize ∧
      (0x7FF4 ≤ 0x7FFF ∧ 0x7FFF < 0x7FF4 + 12) ∧ (0x7FF3 < 0x7FF4 ∨ 0x7FF4 + 12 ≤ 0x7FF3)) ∧
    lab.config.memSize < 0x7FF5 + 12 ∧ 0x7FF0 + (BackingArray.mk 0x30000 16).size ≤ lab.config.memSize ∧
    lab.config.memSize < 0x7FF1 + (BackingArray.mk 0x30000 16).size ∧
    (0x7FFF < lab.config.memSize ∧ lab.config.memSize ≤ 0x8000) ∧
    (lab.config.numConfigs ≤ 2 ∧ 1 < lab.config.numConfigs ∧ 1 ≠ lab.mem.cfg) ∧
    (∃ t, mapRegister none 0x7FFF 0x40000 .readWrite { lab with mem := { lab.mem with cfg := 1 } } =
      .ok ((), t)) ∧
    (∃ reason left, mapRom none 0x7FF1 ⟨0x30000, 16⟩ { lab with mem := { lab.mem with cfg := 1 } } =
      .error (.configuration reason left)) :=
  ⟨by decide, by decide, by decide, by decide, by decide, by decide, ⟨_, rfl⟩, _, _, rfl⟩

theorem witness_RamUnderRom :
    lab.mem.wf = true ∧ 0x40000 ≠ 0x10000 ∧
    ∃ s1 s2, mapRam none (0x7FFF#16).toNat ⟨0x40000, 1⟩ 0 none lab = .ok ((), s1) ∧
      mapRom none (0x7FFF#16).toNat ⟨0x10000, 1⟩ s1 = .ok ((), s2) :=
  ⟨rfl, by decide, _, _, rfl, rfl⟩

/-- `lab` has the invariant. -/
theorem lab_inv : lab.Inv :=
  { memory := rfl, config := by decide +kernel, cfg := by decide, maps := by decide, segments := by decide,
    irq := by decide, nmi := by decide, callCounts := by decide, lifetimeCounts := by decide,
    running := fun _ => rfl }

/-- A segment that ends at MEM_SIZE and one that ends beyond it. -/
theorem witness_ConfigurationsAndBanksSwitchMappings :
    (1 < lab.config.numConfigs ∧ lab.config.numConfigs ≤ 2) ∧
    (lab.writeSlot 0x3000 = some (.device 1) ∧ ∃ reply rest, lab.replies = reply :: rest ∧
      reply.answer (.write 1 0x3000 0x55) = ⟨0x99, [.setConfiguration 1]⟩) ∧
    (lab.Inv ∧ 0x7F00 + 0x100 ≤ lab.config.memSize ∧ lab.config.memSize < 0x7F01 + 0x100 ∧
      (0x7F00 ≤ 0x7FFF ∧ 0x7FFF < 0x7F00 + 0x100) ∧ (0x7EFF < 0x7F00 ∨ 0x7F00 + 0x100 ≤ 0x7EFF)) ∧
    (lab.mem.segments[0]? = some ⟨"bank", 0x5000, 0x100, [0x20000, 0x20100], 0⟩ ∧
      [0x20000, 0x20100][1]? = some 0x20100 ∧ [0x20000, 0x20100].length ≤ 2) :=
  ⟨by decide, ⟨rfl, _, _, rfl, rfl⟩, ⟨lab_inv, by decide⟩, rfl, rfl, by decide⟩

/-- The case of a reply, its answer to any other call, an answer with an action that is an error, no
reply; a read of RAM, of nothing and of a device, a write of a device and of RAM; and the three kinds of
invocation. -/
theorem witness_HooksLeaveTheProcessor :
    (∃ reply rest answer, lab.replies = reply :: rest ∧
      reply.cases.lookup (.read 1 0x30FF) = some answer ∧ answer = ⟨0x77, []⟩ ∧
      reply.cases.lookup (.read 1 0x3000) = none ∧ reply.otherwise = ⟨0x99, [.setConfiguration 1]⟩) ∧
    (∃ t, applyActions [.setConfiguration 1]
      { lab with hookCalls := .read 1 0x3000 :: lab.hookCalls, replies := lab.replies.tail } = .ok ((), t)) ∧
    (∃ f, applyActions [.setConfiguration 2]
      { labError with hookCalls := .afterInstruction :: lab.hookCalls, replies := [] } = .error f) ∧
    State.reset.replies = [] ∧
    (lab.readSlot 0x0010 = some (.byte 0x10) ∧ lab.readSlot 0x4000 = none ∧
      lab.readSlot 0x3000 = some (.device 1) ∧ lab.writeSlot 0x3000 = some (.device 1) ∧
      ∀ port, lab.writeSlot 0x0010 ≠ some (.device port)) ∧
    (∃ v t, memRead 0x3000 lab = .ok (v, t)) ∧ (∃ t, memWrite 0x30FF 0x55 lab = .ok ((), t)) ∧
    (∃ t, fireObservers (.unknownOpcode 0x02) 1 lab = .ok ((), t)) :=
  ⟨⟨_, _, _, rfl, rfl, rfl, rfl, rfl⟩, ⟨_, rfl⟩, ⟨_, rfl⟩, rfl, ⟨rfl, rfl, rfl, rfl, by simp [lab, State.writeSlot, Memory.writeSlot, Mapping.covers, Backing.slot, State.reset, Config.default]⟩,
    ⟨_, _, rfl⟩, ⟨_, rfl⟩, ⟨_, rfl⟩⟩

/-! ### Addressing modes -/

/-- A resolution that crosses, and one that faults. -/
theorem witness_AbsoluteModesReportCrossing :
    (∃ a c s1, effectiveAddress (.absoluteX 0x10FF) { lab with x := 0x01 } = .ok ((a, c), s1) ∧ c = true) ∧
    (∃ f, effectiveAddress (.indirect 0x4000) lab = .error f) :=
  ⟨⟨_, _, _, rfl, rfl⟩, _, rfl⟩

/-- A pointer at `$FF` under both settings, and `JMP ($30FF)`. -/
theorem witness_IndirectModesReadTheirPointers :
    let s := machine 0x0202 0xFF 0 0x01 0x02 0 [(0x00, 0x50), (0xFF, 0x34), (0x100, 0x12), (0x3000, 0x40),
      (0x30FF, 0x34)]
    (s.config.zpPtrWrap = .linear ∧ s.peek (zeroExtend (0xFE#8 + s.x)) = some 0x34 ∧
      s.peek (zeroExtend (0xFE#8 + s.x) + 1) = some 0x12 ∧ s.peek (zeroExtend 0xFF#8) = some 0x34 ∧
      s.peek (zeroExtend 0xFF#8 + 1) = some 0x12) ∧
    ((onPage0 s).config.zpPtrWrap ≠ .linear ∧ (onPage0 s).peek (zeroExtend (0xFE#8 + s.x)) = some 0x34 ∧
      (onPage0 s).peek (zeroExtend (0xFE#8 + s.x + 1)) = some 0x50 ∧
      (onPage0 s).peek (zeroExtend (0xFF#8 + 1)) = some 0x50) ∧
    s.peek 0x30FF = some 0x34 ∧ s.peek (wordOf (highByte 0x30FF) (lowByte 0x30FF + 1)) = some 0x40 := by
  decide +kernel

/-- A pointer behind a device, whose first read moves the mappings away in `lab` and does not in the
other state, and a pointer that is unmapped; for the zero-page modes, a pointer whose high byte is. -/
theorem witness_IndirectModesReadTheirPointers_general :
    let quiet : State := { lab with replies := [⟨[], ⟨0x12, []⟩⟩, ⟨[], ⟨0x34, []⟩⟩] }
    let edge : State := { lab with x := 0x80, mem := { lab.mem with maps := [⟨0, 0xFF, 1, some (.bytes 0), none⟩] } }
    (Address.indirect 0x3000 = .indirect 0x3000 ∧
      (∃ lo hi s1 s2, memRead 0x3000 quiet = .ok (lo, s1) ∧
        memRead (wordOf (highByte 0x3000) (lowByte 0x3000 + 1)) s1 = .ok (hi, s2)) ∧
      (∃ lo s1 f, memRead 0x3000 lab = .ok (lo, s1) ∧
        memRead (wordOf (highByte 0x3000) (lowByte 0x3000 + 1)) s1 = .error f) ∧
      ∃ f, memRead 0x4000 lab = .error f) ∧
    (∃ lo s1 f, memRead (zeroExtend (0x7F#8 + edge.x)) edge = .ok (lo, s1) ∧
      memRead (if edge.config.zpPtrWrap = .linear then zeroExtend (0x7F#8 + edge.x) + 1
        else zeroExtend (0x7F#8 + edge.x + 1)) s1 = .error f) ∧
    (∃ lo s1 f, memRead (zeroExtend 0xFF#8) edge = .ok (lo, s1) ∧
      memRead (if edge.config.zpPtrWrap = .linear then zeroExtend 0xFF#8 + 1 else zeroExtend (0xFF#8 + 1)) s1 =
        .error f) :=
  ⟨⟨rfl, ⟨_, _, _, _, rfl, rfl⟩, ⟨_, _, _, rfl, rfl⟩, _, rfl⟩, ⟨_, _, _, rfl, rfl⟩, _, _, _, rfl, rfl⟩

/-! ### Registers, values, addresses -/

theorem witness_IndexRegistersCount :
    (0x00#8).toNat = ((0xFF#8).toNat + 1) % 256 ∧ (0xFF#8).toNat = ((0x00#8).toNat + 255) % 256 ∧
    (machine 0 0xFF 0 0xFF 0x00 0 []).x = 0xFF#8 ∧ (machine 0 0xFF 0 0xFF 0x00 0 []).y = 0x00#8 := by
  decide

/-- The byte operand of a shape (b) instruction is obtained. -/
def ValueReady (i : Instr) (s : State) : Prop :=
  ∃ value v s1, valueOf i.operand = some value ∧ value s = .ok (v, s1)

/-- The address operand of a shape (c) instruction is obtained. -/
def AddressReady (i : Instr) (s : State) : Prop :=
  ∃ address addr s1, addressOf i.operand = some address ∧ address s = .ok (addr, s1)

/-- A crossing read, one through a device, and an immediate. -/
theorem witness_LoadsLoadAndSetZN :
    (ValueReady (.ldaAbsX 0x10FF) { lab with x := 0x01 } ∧ (Instr.ldaAbsX 0x10FF).mnemonic = .lda) ∧
    (ValueReady (.ldxAbsY 0x3000) { lab with y := 0xFF } ∧ (Instr.ldxAbsY 0x3000).mnemonic = .ldx) ∧
    (ValueReady (.ldyImm 0x00) lab ∧ (Instr.ldyImm 0x00).mnemonic = .ldy) :=
  ⟨⟨⟨_, _, _, rfl, rfl⟩, rfl⟩, ⟨⟨_, _, _, rfl, rfl⟩, rfl⟩, ⟨_, _, _, rfl, rfl⟩, rfl⟩

theorem witness_AddAndSubtractWithCarry :
    (ValueReady (.adcIzY 0x20) { lab with y := 0xFF } ∧ (Instr.adcIzY 0x20).mnemonic = .adc) ∧
    (ValueReady (.sbcZpX 0xFF) { lab with x := 0x11 } ∧ (Instr.sbcZpX 0xFF).mnemonic = .sbc) :=
  ⟨⟨⟨_, _, _, rfl, rfl⟩, rfl⟩, ⟨_, _, _, rfl, rfl⟩, rfl⟩

theorem witness_LogicOnTheAccumulator :
    (ValueReady (.andIzX 0x0F) { lab with x := 0x11 } ∧ (Instr.andIzX 0x0F).mnemonic = .and) ∧
    (ValueReady (.oraZp 0x10) lab ∧ (Instr.oraZp 0x10).mnemonic = .ora) ∧
    (ValueReady (.eorAbs 0x20FF) lab ∧ (Instr.eorAbs 0x20FF).mnemonic = .eor) :=
  ⟨⟨⟨_, _, _, rfl, rfl⟩, rfl⟩, ⟨⟨_, _, _, rfl, rfl⟩, rfl⟩, ⟨_, _, _, rfl, rfl⟩, rfl⟩

theorem witness_ComparesAndBitChangeFlagsOnly :
    (ValueReady (.cmpAbsY 0x1FFF) { lab with y := 0x01 } ∧ (Instr.cmpAbsY 0x1FFF).mnemonic = .cmp) ∧
    (ValueReady (.cpxImm 0x80) lab ∧ (Instr.cpxImm 0x80).mnemonic = .cpx) ∧
    (ValueReady (.cpyZp 0xFF) lab ∧ (Instr.cpyZp 0xFF).mnemonic = .cpy) ∧
    (ValueReady (.bitAbs 0x0010) lab ∧ (Instr.bitAbs 0x0010).mnemonic = .bit) :=
  ⟨⟨⟨_, _, _, rfl, rfl⟩, rfl⟩, ⟨⟨_, _, _, rfl, rfl⟩, rfl⟩, ⟨⟨_, _, _, rfl, rfl⟩, rfl⟩,
    ⟨_, _, _, rfl, rfl⟩, rfl⟩

/-- One instruction of each clause; `State.reset` maps no device. -/
theorem witness_ValueInstructionsFrame :
    State.reset.mem.plain = true ∧
    ∀ i ∈ [Instr.ldaImm 0x00, .adcAbsX 0xFFFF, .sbcZp 0xFF, .cmpIzX 0x80, .bitAbs 0xFFFF],
      i.mnemonic ∈ [Mnemonic.lda, .ldx, .ldy, .adc, .sbc, .and, .ora, .eor, .cmp, .cpx, .cpy, .bit] ∧
        ∃ t, exec i State.reset = .next t := by
  refine ⟨rfl, fun i hi => ?_⟩
  have h : ∀ i ∈ [Instr.ldaImm 0x00, .adcAbsX 0xFFFF, .sbcZp 0xFF, .cmpIzX 0x80, .bitAbs 0xFFFF],
      i.mnemonic ∈ [Mnemonic.lda, .ldx, .ldy, .adc, .sbc, .and, .ora, .eor, .cmp, .cpx, .cpy, .bit] ∧
        executes i State.reset (fun _ => true) = true := by
    decide +kernel
  obtain ⟨t, ht, -⟩ := exists_of_executes (h i hi).2
  exact ⟨(h i hi).1, t, ht⟩

theorem witness_StoresWriteTheRegister :
    (AddressReady (.staIzY 0x20) { lab with y := 0x01 } ∧ (Instr.staIzY 0x20).mnemonic = .sta) ∧
    (AddressReady (.stxZpY 0xFF) { lab with y := 0x02 } ∧ (Instr.stxZpY 0xFF).mnemonic = .stx) ∧
    (AddressReady (.styAbs 0x1FFF) lab ∧ (Instr.styAbs 0x1FFF).mnemonic = .sty) ∧
    (∃ t, memWrite 0x3001 0x00 lab = .ok ((), t)) ∧ lab.writeSlot 0x1FFF = some (.byte 0x1FFF) :=
  ⟨⟨⟨_, _, _, rfl, rfl⟩, rfl⟩, ⟨⟨_, _, _, rfl, rfl⟩, rfl⟩, ⟨⟨_, _, _, rfl, rfl⟩, rfl⟩, ⟨_, rfl⟩, rfl⟩

/-- INC of `$FF` and DEC of `$00`. -/
theorem witness_IncrementAndDecrementMemory :
    let s := machine 0x0202 0xFF 0 0x01 0 0 [(0x1100, 0xFF)]
    (∃ address addr s1 v s2 s3, addressOf (Instr.incAbsX 0x10FF).operand = some address ∧
      address s = .ok (addr, s1) ∧ memRead addr s1 = .ok (v, s2) ∧
      (0x00#8).toNat = (v.toNat + 1) % 256 ∧ memWrite addr 0x00#8 s2 = .ok ((), s3)) ∧
    (∃ address addr s1 v s2 s3, addressOf (Instr.decZpX 0xFF).operand = some address ∧
      address s = .ok (addr, s1) ∧ memRead addr s1 = .ok (v, s2) ∧
      (0xFF#8).toNat = (v.toNat + 255) % 256 ∧ memWrite addr 0xFF#8 s2 = .ok ((), s3)) ∧
    (Instr.incAbsX 0x10FF).mnemonic = .inc ∧ (Instr.decZpX 0xFF).mnemonic = .dec :=
  ⟨⟨_, _, _, _, _, _, rfl, rfl, rfl, rfl, rfl⟩, ⟨_, _, _, _, _, _, rfl, rfl, rfl, rfl, rfl⟩, rfl, rfl⟩

theorem witness_JumpGoesToTheAddress :
    let s := machine 0x0203 0xFF 0 0 0 0 [(0x3000, 0x40), (0x30FF, 0x80)]
    (s.peek 0x30FF = some 0x80 ∧
      s.peek ((0x30FF#16 &&& 0xFF00#16) ||| ((0x30FF#16 + 1) &&& 0x00FF#16)) = some 0x40) ∧
    (Instr.jmpInd 0x30FF).mnemonic = .jmp ∧ AddressReady (.jmpInd 0x30FF) s :=
  ⟨by decide +kernel, rfl, ⟨_, _, _, rfl, rfl⟩⟩

theorem witness_ShiftsOnAccumulatorAndMemory :
    (Instr.rorAcc.mnemonic = .ror ∧ Instr.rorAcc.operand = .accumulator) ∧
    (Instr.rolAbsX 0x10FF).mnemonic = .rol ∧ (Instr.lsrZp 0xFF).mnemonic = .lsr ∧
    (Instr.aslAbs 0xFFFF).mnemonic = .asl ∧
    (∃ address addr s1 v s2 s3,
      addressOf (Instr.aslAbs 0xFFFF).operand = some address ∧ address State.reset = .ok (addr, s1) ∧
      memRead addr s1 = .ok (v, s2) ∧
      memWrite addr (shiftLeft v (getFlag .c s2.p)).value s2 = .ok ((), s3)) :=
  ⟨⟨rfl, rfl⟩, rfl, rfl, rfl, _, _, _, _, _, _, rfl, rfl, rfl, rfl⟩

theorem witness_MemoryWritersFrame :
    (State.reset.mem.plain = true ∧ State.reset.mem.wf = true) ∧
    (∀ i ∈ [Instr.staAbsX 0xFFFF, .incZp 0xFF, .rorAcc, .lsrZpX 0x80],
      i.mnemonic ∈ [Mnemonic.sta, .stx, .sty, .inc, .dec, .asl, .lsr, .rol, .ror] ∧
        ∃ t, exec i State.reset = .next t) ∧
    addressOf Instr.rorAcc.operand = none ∧
    (AddressReady (.staAbsX 0xFFFF) State.reset ∧
      ∀ k, State.reset.writeSlot 0xFFFF = some (.byte k) → State.reset.readSlot 0xFFFE ≠ some (.byte k)) := by
  refine ⟨⟨rfl, rfl⟩, fun i hi => ?_, rfl, ⟨_, _, _, rfl, rfl⟩, fun k hk => ?_⟩
  · have h : ∀ i ∈ [Instr.staAbsX 0xFFFF, .incZp 0xFF, .rorAcc, .lsrZpX 0x80],
        i.mnemonic ∈ [Mnemonic.sta, .stx, .sty, .inc, .dec, .asl, .lsr, .rol, .ror] ∧
          executes i State.reset (fun _ => true) = true := by
      decide +kernel
    obtain ⟨t, ht, -⟩ := exists_of_executes (h i hi).2
    exact ⟨(h i hi).1, t, ht⟩
  · have h1 := (machine_ramAt 0 0xFF 0 0 0 0 [] 0xFFFF).2
    have h2 := (machine_ramAt 0 0xFF 0 0 0 0 [] 0xFFFE).1
    change State.reset.writeSlot 0xFFFF = _ at h1
    change State.reset.readSlot 0xFFFE = _ at h2
    rw [h1] at hk
    rw [h2]
    injection hk with hk
    injection hk with hk
    subst hk
    decide

/-! ### Branches and stack -/

/-- Not taken; taken to another page forward and backward across `$0000`. -/
theorem witness_BranchesAddTheSignedOffset :
    ((!getFlag .c 0x01#8) = false ∧ getFlag .z 0x02#8 = true) ∧
    ((0x0001#16).toNat = ((0xFF82#16).toNat + (0x7F#8).toNat + (if (0x7F#8).toNat < 128 then 0 else 0xFF00))
      % 65536) ∧
    ((0xFF82#16).toNat = ((0x0002#16).toNat + (0x80#8).toNat + (if (0x80#8).toNat < 128 then 0 else 0xFF00))
      % 65536) ∧
    (isRelative (Instr.bvs 0x80#8).operand = true ∧
      findRow Config.default.table (Instr.bvs 0x80#8).opcode = 
        some ⟨0x70#8, .documented .bvs, .relative, 2, 2, 0, true⟩) := by
  decide +kernel

/-- SP at `$00`: the second pushed byte goes to `$01FF`. -/
theorem witness_StackPushAndPull :
    let s := machine 0x0201 0x00 0 0 0 0 []
    (∃ t, memWrite (stackAddress s.sp) 0x42 s = .ok ((), t)) ∧
    (∃ v t, memRead (stackAddress (s.sp + 1)) { s with sp := s.sp + 1 } = .ok (v, t)) ∧
    (∃ s1 s2, push8 (highByte 0xABCD#16) s = .ok ((), s1) ∧ push8 (lowByte 0xABCD#16) s1 = .ok ((), s2)) ∧
    (∃ lo hi s1 s2, pull8 s = .ok (lo, s1) ∧ pull8 s1 = .ok (hi, s2)) ∧
    (s.mem.wf = true ∧ s.RamAt (stackAddress s.sp) 0x0100 ∧ s.RamAt (stackAddress (s.sp - 1)) 0x01FF ∧
      0x0100 ≠ 0x01FF) :=
  ⟨⟨_, rfl⟩, ⟨_, _, rfl⟩, ⟨_, _, rfl, rfl⟩, ⟨_, _, _, _, rfl, rfl⟩, rfl,
    machine_ramAt 0x0201 0x00 0 0 0 0 [] 0x0100, machine_ramAt 0x0201 0x00 0 0 0 0 [] 0x01FF, by decide⟩

/-- Nothing mapped; the second byte of a push and of a pull at the edge of RAM. -/
theorem witness_StackPushAndPull_fault :
    ((∃ f, memWrite (stackAddress bare.sp) 0x42 bare = .error f) ∧
      (∃ f, memRead (stackAddress (bare.sp + 1)) { bare with sp := bare.sp + 1 } = .error f) ∧
      (∃ f, pull8 bare = .error f) ∧ ∃ f, push8 (highByte 0xABCD) bare = .error f) ∧
    (∃ s1 f, push8 (highByte 0xABCD) (halfStack 0x80) = .ok ((), s1) ∧ push8 (lowByte 0xABCD) s1 = .error f) ∧
    (∃ lo s1 f, pull8 (halfStack 0xFE) = .ok (lo, s1) ∧ pull8 s1 = .error f) :=
  ⟨⟨⟨_, rfl⟩, ⟨_, rfl⟩, ⟨_, rfl⟩, _, rfl⟩, ⟨_, _, rfl, rfl⟩, _, _, _, rfl, rfl⟩

theorem witness_PushInstructions :
    let s := machine 0x0201 0x00 0x42 0 0 0xCF []
    (∃ t, push8 s.a s = .ok ((), t)) ∧ (∃ t, push8 (s.p ||| 0x30#8) s = .ok ((), t)) ∧
    s.writeSlot (stackAddress s.sp) = some (.byte 0x0100) :=
  ⟨⟨_, rfl⟩, ⟨_, rfl⟩, rfl⟩

/-- SP at `$FF`: the byte comes from `$0100`. -/
theorem witness_PullInstructions :
    let s := machine 0x0201 0xFF 0 0 0 0 [(0x0100, 0x80)]
    (∃ v t, pull8 s = .ok (v, t)) ∧ s.peek (stackAddress (s.sp + 1)) = some 0x80 :=
  ⟨⟨_, _, rfl⟩, rfl⟩

theorem witness_SubroutineCallAndReturn :
    let s := machine 0x0203 0x00 0 0 0 0 []
    (∃ t, push16 (s.pc - 1) { s with events := { s.events with crossed := false } } = .ok ((), t)) ∧
    (∃ w t, pull16 s = .ok (w, t)) ∧
    (s.mem.wf = true ∧ s.RamAt (stackAddress s.sp) 0x0100 ∧ s.RamAt (stackAddress (s.sp - 1)) 0x01FF ∧
      0x0100 ≠ 0x01FF) :=
  ⟨⟨_, rfl⟩, ⟨_, _, rfl⟩, rfl, machine_ramAt 0x0203 0x00 0 0 0 0 [] 0x0100,
    machine_ramAt 0x0203 0x00 0 0 0 0 [] 0x01FF, by decide⟩

/-- The frame of an exception taken with SP at `$01`: `$0101`, `$0100`, `$01FF`. -/
theorem witness_BrkTakesTheSoftwareInterrupt :
    let s := machine 0xFFFF 0x01 0 0 0 0xCB [(0xFFFE, 0x34), (0xFFFF, 0x12)]
    (∃ s1 s2 w s3, push16 (s.pc + 1) s = .ok ((), s1) ∧ push8 (s1.p ||| 0x30#8) s1 = .ok ((), s2) ∧
      memReadWord 0xFFFE#16 { s2 with p := s2.p ||| 0x04#8 } = .ok (w, s3)) ∧
    (s.writeSlot (stackAddress s.sp) = some (.byte 0x0101) ∧
      s.writeSlot (stackAddress (s.sp - 1)) = some (.byte 0x0100) ∧
      s.writeSlot (stackAddress (s.sp - 2)) = some (.byte 0x01FF) ∧
      ∃ m, m = ((s.mem.store 0x0101 (highByte (s.pc + 1))).store 0x0100 (lowByte (s.pc + 1))).store 0x01FF
          (s.p ||| 0x30#8) ∧
        ({ s with mem := m } : State).peek 0xFFFE#16 = some 0x34 ∧
        ({ s with mem := m } : State).peek 0xFFFF#16 = some 0x12) :=
  ⟨⟨_, _, _, _, rfl, rfl, rfl⟩, rfl, rfl, rfl, _, rfl, rfl, rfl⟩

theorem witness_RtiRestoresStatusAndPc :
    let s := machine 0x8001 0xFE 0 0 0 0x34 [(0x0100, 0x02), (0x0101, 0x80), (0x01FF, 0xC3)]
    (∃ b s1 w s2, pull8 s = .ok (b, s1) ∧
      pull16 { s1 with p := (b &&& 0xCF#8) ||| (s1.p &&& 0x30#8) } = .ok (w, s2)) ∧
    (s.peek (stackAddress (s.sp + 1)) = some 0xC3 ∧ s.peek (stackAddress (s.sp + 2)) = some 0x02 ∧
      s.peek (stackAddress (s.sp + 3)) = some 0x80) :=
  ⟨⟨_, _, _, _, rfl, rfl⟩, rfl, rfl, rfl⟩

theorem witness_StackInstructionsFrame :
    (State.reset.mem.plain = true ∧ State.reset.mem.wf = true) ∧
    (∀ i ∈ [Instr.pha, .php, .jsr 0x1234, .brk, .pla, .plp, .rts, .rti],
      i.mnemonic ∈ [Mnemonic.pha, .php, .jsr, .brk, .pla, .plp, .rts, .rti] ∧
        ∃ t, exec i State.reset = .next t) ∧
    ∀ sp ∈ [State.reset.sp, State.reset.sp - 1, State.reset.sp - 2], ∀ k,
      State.reset.writeSlot (stackAddress sp) = some (.byte k) → State.reset.readSlot 0x0200 ≠ some (.byte k) := by
  refine ⟨⟨rfl, rfl⟩, fun i hi => ?_, fun sp hsp k hk => ?_⟩
  · have h : ∀ i ∈ [Instr.pha, .php, .jsr 0x1234, .brk, .pla, .plp, .rts, .rti],
        i.mnemonic ∈ [Mnemonic.pha, .php, .jsr, .brk, .pla, .plp, .rts, .rti] ∧
          executes i State.reset (fun _ => true) = true := by
      decide +kernel
    obtain ⟨t, ht, -⟩ := exists_of_executes (h i hi).2
    exact ⟨(h i hi).1, t, ht⟩
  · have h1 := (machine_ramAt 0 0xFF 0 0 0 0 [] (stackAddress sp)).2
    have h2 := (machine_ramAt 0 0xFF 0 0 0 0 [] 0x0200).1
    change State.reset.writeSlot (stackAddress sp) = _ at h1
    change State.reset.readSlot 0x0200 = _ at h2
    rw [h1] at hk
    rw [h2]
    injection hk with hk
    injection hk with hk
    subst hk
    revert sp
    decide

/-! ### Whole-machine rules -/

theorem witness_EveryInstructionCompletesOnRam : State.reset.AllRam := reset_allRam

/-- A state whose instruction has a zero-page operand is at an address with a read-hook and no more
after it: the ROM of `lab` ends at `$20FF`. -/
def atRomEnd (pc : Word) (cells : List Host.Cell) : State :=
  { lab with pc := pc, mem := { lab.mem with cells := cells } }

/-- On an unmapped platform: the operand's read, the pointer's read, the read of a resolved address,
pushes and pulls; into ROM under the fault policy: the write of a store, and of the instructions that
read, modify and write. -/
theorem witness_FaultingAccessEndsTheInstruction :
    (∃ value f, valueOf (Instr.ldaZp 0x10).operand = some value ∧ value bare = .error f) ∧
    (∃ address f, addressOf (Instr.staIzY 0x10).operand = some address ∧ address bare = .error f) ∧
    (∃ address addr s1 f, addressOf (Instr.incAbs 0x1234).operand = some address ∧
      address bare = .ok (addr, s1) ∧ memRead addr s1 = .error f) ∧
    (∃ address addr s1 v s2 f, addressOf (Instr.incAbs 0x2000).operand = some address ∧
      address labRomFault = .ok (addr, s1) ∧ memRead addr s1 = .ok (v, s2) ∧
      (0xEB#8).toNat = (v.toNat + 1) % 256 ∧ memWrite addr 0xEB#8 s2 = .error f) ∧
    (∃ address addr s1 v s2 f, addressOf (Instr.rorAbs 0x2001).operand = some address ∧
      address labRomFault = .ok (addr, s1) ∧ memRead addr s1 = .ok (v, s2) ∧
      memWrite addr (rotateRight v (getFlag .c s2.p)).value s2 = .error f) ∧
    (∃ address addr s1 f, addressOf (Instr.stxAbs 0x2000).operand = some address ∧
      address labRomFault = .ok (addr, s1) ∧ memWrite addr s1.x s1 = .error f) ∧
    ((∃ f, push8 bare.a bare = .error f) ∧ (∃ f, push8 (bare.p ||| 0x30#8) bare = .error f) ∧
      (∃ f, pull8 bare = .error f) ∧ (∃ f, pull16 bare = .error f) ∧
      (∃ f, push16 (bare.pc - 1) { bare with events := { bare.events with crossed := false } } = .error f) ∧
      ∃ f, push16 (bare.pc + 1) bare = .error f) :=
  ⟨⟨_, _, rfl, rfl⟩, ⟨_, _, rfl, rfl⟩, ⟨_, _, _, _, rfl, rfl, rfl⟩, ⟨_, _, _, _, _, _, rfl, rfl, rfl, rfl, rfl⟩,
    ⟨_, _, _, _, _, _, rfl, rfl, rfl, rfl⟩, ⟨_, _, _, _, rfl, rfl, rfl⟩, ⟨_, rfl⟩, ⟨_, rfl⟩, ⟨_, rfl⟩,
    ⟨_, rfl⟩, ⟨_, rfl⟩, _, rfl⟩

/-- BRK with RAM for two pushes only, and with no vector; RTI with RAM for one pull only. -/
theorem witness_FaultingAccessEndsTheInstruction_later :
    (∃ s1 f, push16 ((halfStack 0x81).pc + 1) (halfStack 0x81) = .ok ((), s1) ∧
      push8 (s1.p ||| 0x30#8) s1 = .error f) ∧
    (∃ s1 s2 f, push16 ((halfStack 0xFF).pc + 1) (halfStack 0xFF) = .ok ((), s1) ∧
      push8 (s1.p ||| 0x30#8) s1 = .ok ((), s2) ∧
      memReadWord 0xFFFE#16 { s2 with p := s2.p ||| 0x04#8 } = .error f) ∧
    (∃ b s1 f, pull8 (halfStack 0xFE) = .ok (b, s1) ∧
      pull16 { s1 with p := (b &&& 0xCF#8) ||| (s1.p &&& 0x30#8) } = .error f) :=
  ⟨⟨_, _, rfl, rfl⟩, ⟨_, _, _, rfl, rfl, rfl⟩, _, _, _, rfl, rfl⟩

/-- The opcode fetch of a step faults; that of an operand byte past the end of ROM, the first and the
second. -/
theorem witness_FaultingAccessEndsTheInstruction_fetch :
    (∃ s1, bare.inCall = true ∧ beginIteration bare = .ok ((), s1) ∧ s1.readSlot s1.pc = none) ∧
    (∃ s1 op s2 row f, beginIteration (atRomEnd 0x20FF [(0x100FF, 0xA9)]) = .ok ((), s1) ∧
      memRead s1.pc s1 = .ok (op, s2) ∧ findRow s2.config.table op = some row ∧ 2 ≤ row.mode.size ∧
      memRead (s2.pc + 1) { s2 with pc := s2.pc + 1 } = .error f) ∧
    (∃ s1 op s2 row lo s3 f, beginIteration (atRomEnd 0x20FE [(0x100FE, 0xAD), (0x100FF, 0x34)]) =
        .ok ((), s1) ∧
      memRead s1.pc s1 = .ok (op, s2) ∧ findRow s2.config.table op = some row ∧ row.mode.size = 3 ∧
      memRead (s2.pc + 1) { s2 with pc := s2.pc + 1 } = .ok (lo, s3) ∧
      memRead (s3.pc + 1) { s3 with pc := s3.pc + 1 } = .error f) :=
  ⟨⟨_, rfl, rfl, rfl⟩, ⟨_, _, _, _, _, rfl, rfl, rfl, by decide, rfl⟩,
    _, _, _, _, _, _, _, rfl, rfl, rfl, rfl, rfl, rfl⟩

/-- One instruction for each register. -/
theorem witness_OnlyTheirWritersChangeRegisters :
    (∃ t, exec (.ldaImm 0x01) State.reset = .next t ∧ (t.a != State.reset.a) = true) ∧
    (∃ t, exec .inx State.reset = .next t ∧ (t.x != State.reset.x) = true) ∧
    (∃ t, exec .dey State.reset = .next t ∧ (t.y != State.reset.y) = true) ∧
    (∃ t, exec .pla State.reset = .next t ∧ (t.sp != State.reset.sp) = true) ∧
    (∃ t, exec (.jmpAbs 0x1234) State.reset = .next t ∧ (t.pc != State.reset.pc) = true) :=
  ⟨exists_of_executes (by decide +kernel), exists_of_executes (by decide +kernel),
    exists_of_executes (by decide +kernel), exists_of_executes (by decide +kernel),
    exists_of_executes (by decide +kernel)⟩

/-- One instruction for each flag. -/
theorem witness_OnlyTheirWritersChangeFlags :
    (∃ t, exec .sec State.reset = .next t ∧ (t.flag .c != State.reset.flag .c) = true) ∧
    (∃ t, exec (.ldaImm 0x00) State.reset = .next t ∧ (t.flag .z != State.reset.flag .z) = true) ∧
    (∃ t, exec .brk State.reset = .next t ∧ (t.flag .i != State.reset.flag .i) = true) ∧
    (∃ t, exec .sed State.reset = .next t ∧ (t.flag .d != State.reset.flag .d) = true) ∧
    (∃ t, exec (.adcImm 0x80) { State.reset with a := 0x80 } = .next t ∧
      (t.flag .v != State.reset.flag .v) = true) :=
  ⟨exists_of_executes (by decide +kernel), exists_of_executes (by decide +kernel),
    exists_of_executes (by decide +kernel), exists_of_executes (by decide +kernel),
    exists_of_executes (by decide +kernel)⟩

theorem witness_ReservedFlagsAreUnobservable : State.reset.inCall = true := rfl

theorem witness_InstructionsLeaveTheRegistryAlone :
    State.reset.mem.plain = true ∧ ∃ t, exec .brk State.reset = .next t :=
  ⟨rfl, _, rfl⟩

/-! ### Interrupts -/

theorem witness_RegistryIsAMapAndASet :
    ([(⟨"timer", true⟩ : IrqSource), ⟨"via", false⟩].map IrqSource.name).Nodup ∧
    ["vblank", "restore"].Nodup := by
  decide

/-- Entry with SP at `$01`, as in T-INT8. -/
theorem witness_InterruptEntry :
    let s := interrupted 0xC123 0x01 0xDB [] ["vblank"]
    (s.writeSlot (stackAddress s.sp) = some (.byte 0x0101) ∧
      s.writeSlot (stackAddress (s.sp - 1)) = some (.byte 0x0100) ∧
      s.writeSlot (stackAddress (s.sp - 2)) = some (.byte 0x01FF)) ∧
    ∃ m, m = ((s.mem.store 0x0101 (highByte s.pc)).store 0x0100 (lowByte s.pc)).store 0x01FF
        ((s.p &&& 0xEF#8) ||| 0x20#8) ∧
      ({ s with mem := m } : State).peek 0xFFFA#16 = some 0x00 ∧
      ({ s with mem := m } : State).peek (0xFFFA#16 + 1) = some 0x81 :=
  ⟨⟨rfl, rfl, rfl⟩, _, rfl, rfl, rfl⟩

/-- An entry that answers, and one whose push of PC, of the status or read of the vector faults. -/
theorem witness_InterruptEntry_general :
    let s := interrupted 0xC123 0x01 0xDB [] ["vblank"]
    (∃ s1 s2 w s3, push16 s.pc s = .ok ((), s1) ∧ push8 ((s1.p &&& 0xEF#8) ||| 0x20#8) s1 = .ok ((), s2) ∧
      memReadWord 0xFFFA#16 { s2 with p := s2.p ||| 0x04#8 } = .ok (w, s3)) ∧
    (∃ f, push16 bare.pc bare = .error f) ∧
    (∃ s1 f, push16 (halfStack 0x81).pc (halfStack 0x81) = .ok ((), s1) ∧
      push8 ((s1.p &&& 0xEF#8) ||| 0x20#8) s1 = .error f) ∧
    (∃ s1 s2 f, push16 (halfStack 0xFF).pc (halfStack 0xFF) = .ok ((), s1) ∧
      push8 ((s1.p &&& 0xEF#8) ||| 0x20#8) s1 = .ok ((), s2) ∧
      memReadWord 0xFFFA#16 { s2 with p := s2.p ||| 0x04#8 } = .error f) :=
  ⟨⟨_, _, _, _, rfl, rfl, rfl⟩, ⟨_, rfl⟩, ⟨_, _, rfl, rfl⟩, _, _, _, rfl, rfl, rfl⟩

/-- NMI under both settings of NMI_ACK, IRQ, IRQ masked, nothing asserted, and an entry that faults. -/
theorem witness_PollServicesAtMostOneInterrupt :
    let nmi := interrupted 0x0203 0xFF 0x04 [⟨"timer", true⟩] ["vblank"]
    let level : State := { nmi with config := { nmi.config with nmiAck := .level } }
    let irq := interrupted 0x0203 0xFF 0x00 [⟨"timer", true⟩] []
    let masked := interrupted 0x0203 0xFF 0x04 [⟨"timer", true⟩] []
    (nmi.nmi ≠ [] ∧ (∃ t, serviceInterrupt 0xFFFA#16 nmi = .ok ((), t) ∧ t.config.nmiAck = .clearOnService) ∧
      ∃ t, serviceInterrupt 0xFFFA#16 level = .ok ((), t) ∧ t.config.nmiAck = .level) ∧
    (irq.nmi = [] ∧ irq.irq ≠ [] ∧ irq.flag .i = false ∧
      ∃ t, serviceInterrupt 0xFFFE#16 irq = .ok ((), t)) ∧
    (masked.nmi = [] ∧ masked.flag .i = true) ∧ (State.reset.nmi = [] ∧ State.reset.irq = []) ∧
    (∃ f, serviceInterrupt 0xFFFA#16 bare = .error f) ∧ (∃ f, serviceInterrupt 0xFFFE#16 bare = .error f) :=
  ⟨⟨by decide, ⟨_, rfl, rfl⟩, _, rfl, rfl⟩, ⟨rfl, by decide, by decide, _, rfl⟩, ⟨rfl, by decide⟩, ⟨rfl, rfl⟩,
    ⟨_, rfl⟩, _, rfl⟩

theorem witness_RtiResumesWhereTheInterruptWasTaken :
    let s := interrupted 0xC123 0x01 0xDB [] ["vblank"]
    (s.mem.wf = true ∧ s.RamAt (stackAddress s.sp) 0x0101 ∧ s.RamAt (stackAddress (s.sp - 1)) 0x0100 ∧
      s.RamAt (stackAddress (s.sp - 2)) 0x01FF) ∧
    ((∃ j, s.readSlot 0xFFFA#16 = some (.byte j)) ∧ ∃ j, s.readSlot (0xFFFA#16 + 1) = some (.byte j)) ∧
    ∃ t, serviceInterrupt 0xFFFA#16 s = .ok ((), t) :=
  ⟨⟨rfl, machine_ramAt 0xC123 0x01 0 0 0 0xDB _ 0x0101, machine_ramAt 0xC123 0x01 0 0 0 0xDB _ 0x0100,
    machine_ramAt 0xC123 0x01 0 0 0 0xDB _ 0x01FF⟩, ⟨⟨_, rfl⟩, ⟨_, rfl⟩⟩, ⟨_, rfl⟩⟩

/-! ### The run loop, the host, reset -/

/-- A three-byte instruction whose last byte stands at `$0000`. -/
theorem witness_StepRunsTheDecodedInstruction :
    let s := machine 0xFFFE 0xFF 0 0 0 0 [(0x0000, 0x12), (0xFFFE, 0xAD), (0xFFFF, 0x34)]
    s.inCall = true ∧
    (∃ s1, beginIteration s = .ok ((), s1) ∧ s1.BytesAt s1.pc [0xAD#8, 0x34#8, 0x12#8] ∧
      decode [0xAD#8, 0x34#8, 0x12#8] = .ok (.ldaAbs 0x1234#16, []) ∧
      (Instr.ldaAbs 0x1234#16).wellFormed s1.config.table = true ∧
      findRow s1.config.table (Instr.ldaAbs 0x1234#16).opcode =
        some ⟨0xAD#8, .documented .lda, .absolute, 3, 4, 0, false⟩) ∧
    (s.NoInterrupt ∧ s.NoObservers) ∧ (StepResult.mk 0xAD 4 false).unknown = false := by
  refine ⟨rfl, ⟨_, rfl, ?_, rfl, rfl, rfl⟩, ⟨⟨rfl, Or.inl rfl⟩, rfl⟩, rfl⟩
  intro k hk
  match k, hk with
  | 0, _ => rfl
  | 1, _ => rfl
  | 2, _ => rfl
  | k + 3, h => simp at h

/-- A pair of R95 under another opcode byte, and a pair that R95 does not have. -/
theorem witness_StepRunsTheDecodedInstruction_table :
    let moved := withRow ⟨0x02, .documented .lda, .immediate, 2, 3, 0, false⟩ [(0x0200, 0x02), (0x0201, 0x80)]
    let crossing := withRow ⟨0xE8, .documented .inx, .absoluteX, 3, 2, 1, false⟩
      [(0x0200, 0xE8), (0x0201, 0xFF), (0x0202, 0x10)]
    (moved.inCall = true ∧ ∃ s1 row, beginIteration moved = .ok ((), s1) ∧
      s1.BytesAt s1.pc (0x02#8 :: (Operand.immediate 0x80).bytes) ∧ findRow s1.config.table 0x02 = some row ∧
      row.behavior = .documented .lda ∧ row.mode = (Operand.immediate 0x80).mode ∧
      (Instr.ldaImm 0x80).mnemonic = .lda ∧ (Instr.ldaImm 0x80).operand = .immediate 0x80) ∧
    (crossing.inCall = true ∧ ∃ s1 row act, beginIteration crossing = .ok ((), s1) ∧
      s1.BytesAt s1.pc (0xE8#8 :: (Operand.memory (.absoluteX 0x10FF)).bytes) ∧
      findRow s1.config.table 0xE8 = some row ∧ row.behavior = .documented .inx ∧
      row.mode = (Operand.memory (.absoluteX 0x10FF)).mode ∧
      (∀ i : Instr, ¬(i.mnemonic = .inx ∧ i.operand = .memory (.absoluteX 0x10FF))) ∧
      behavior .inx (.memory (.absoluteX 0x10FF)) = some act) := by
  refine ⟨⟨rfl, _, _, rfl, ?_, rfl, rfl, rfl, rfl, rfl⟩,
    ⟨rfl, _, _, _, rfl, ?_, rfl, rfl, rfl, fun i => ?_, rfl⟩⟩
  · intro k hk
    match k, hk with
    | 0, _ => rfl
    | 1, _ => rfl
    | k + 2, h => simp [Operand.bytes] at h
  · intro k hk
    match k, hk with
    | 0, _ => rfl
    | 1, _ => rfl
    | 2, _ => rfl
    | k + 3, h => simp [Operand.bytes] at h
  · cases i <;> simp [Instr.mnemonic, Instr.operand]

theorem witness_UnknownOpcodeIsCountedOrFatal :
    let s := machine 0xFFFF 0xFF 0 0 0 0 [(0xFFFF, 0x02)]
    (s.inCall = true ∧ s.NoInterrupt ∧ s.NoObservers ∧ s.peek s.pc = some 0x02 ∧
      findRow s.config.table 0x02#8 = none) ∧
    (s.options.unknownInstructionIsFatal = false ∧
      ({ ExecutionOptions.none with unknownInstructionIsFatal := true } :
        ExecutionOptions).unknownInstructionIsFatal = true) :=
  ⟨⟨rfl, ⟨rfl, Or.inl rfl⟩, rfl, rfl, rfl⟩, rfl, rfl⟩

/-- No condition holds a cycle below the budget, one does at the budget. -/
theorem witness_FoldAndStopConditions :
    let o : ExecutionOptions := { ExecutionOptions.none with cycleBudget := some 7 }
    stopConditions o ⟨6, 1, 0, none, none⟩ 0x0201 0x0200 0xEA = [] ∧
    stopConditions o ⟨7, 1, 0, none, none⟩ 0x0201 0x0200 0xEA ≠ [] := by
  decide +kernel

/-- The pending operations of the host; reads that answer and reads that fault; bulk access across the
end of RAM, and past `$FFFF`. -/
theorem witness_HostActsBetweenCalls :
    let idle : State := { State.reset with inCall := false }
    (idle.inCall = false ∧ idle.hostQueue = []) ∧
    ({ idle with hostQueue := [.setA 0x01] } : State).hostQueue = .setA 0x01 :: [] ∧
    ({ idle with hostQueue := [.run ExecutionOptions.none] } : State).hostQueue =
      .run ExecutionOptions.none :: [] ∧
    ((∃ b t, memRead 0x1FFF lab = .ok (b, t)) ∧ (∃ u t, memReadWord 0x1FFF lab = .ok (u, t)) ∧
      (∃ f, memRead 0x4000 lab = .error f) ∧ ∃ f, memReadWord 0x20FF lab = .error f) ∧
    ((∃ bytes t, bulkRead 0x20FE 2 lab = .ok (bytes, t)) ∧ (∃ f, bulkRead 0x20FE 3 lab = .error f) ∧
      65536 ≤ 65536 ∧ (0x1FFF#16).toNat = 0x1FFF ∧ (∃ f, memWrite 0x4000 0x01 lab = .error f) ∧
      (∃ b t bytes u, memRead 0x20FE lab = .ok (b, t) ∧ bulkRead (0x20FE + 1) 1 t = .ok (bytes, u)) ∧
      (∃ b t f, memRead 0x20FF lab = .ok (b, t) ∧ bulkRead (0x20FF + 1) 1 t = .error f) ∧
      ∃ t, memWrite 0x1FFF 0x01 lab = .ok ((), t)) :=
  ⟨⟨rfl, rfl⟩, rfl, rfl, ⟨⟨_, _, rfl⟩, ⟨_, _, rfl⟩, ⟨_, rfl⟩, _, rfl⟩, ⟨_, _, rfl⟩, ⟨_, rfl⟩, by decide, rfl,
    ⟨_, rfl⟩, ⟨_, _, _, _, rfl, rfl⟩, ⟨_, _, _, rfl, rfl⟩, _, rfl⟩

/-- Reset from a vector, from an unmapped vector, and with A and SP pinned. -/
theorem witness_ResetLoadsThePc :
    let pinned : State := { State.reset with
      config := { Config.default with resetValues := ⟨some 0x01, none, none, some 0xFD, none⟩ } }
    State.reset.config.resetValues = ⟨none, none, none, none, none⟩ ∧
    (∃ w t, memReadWord 0xFFFC#16 State.reset = .ok (w, t)) ∧
    (∃ f, memReadWord 0xFFFC#16 bare = .error f) ∧
    (∃ t, resetMachine (some 0x1234) pinned = .ok ((), t)) ∧
    pinned.config.resetValues.a = some 0x01 ∧ pinned.config.resetValues.sp = some 0xFD :=
  ⟨rfl, ⟨_, _, rfl⟩, ⟨_, rfl⟩, ⟨_, rfl⟩, rfl, rfl⟩

/-- A free and a taken opcode byte, and one construction of each kind. -/
theorem witness_ResetStateIsTheBootedMachine :
    (findRow defaultTable 0x02#8 = none ∧ findRow defaultTable 0xEA#8 ≠ none) ∧
    ({ Config.default with memSize := 0 } : Config).memSize = 0 ∧
    65536 < ({ Config.default with memSize := 65537 } : Config).memSize ∧
    (1 ≤ Config.default.memSize ∧ Config.default.memSize ≤ 65536) ∧
    ({ Config.default with numConfigs := 0 } : Config).numConfigs = 0 ∧
    (1 ≤ Config.default.numConfigs ∧ (Config.default.table.map TableRow.opcode).Nodup) ∧
    ¬(([nopRow 0xEA#8, nopRow 0xEA#8] : List TableRow).map TableRow.opcode).Nodup := by
  decide +kernel

/-- A call in progress at an instruction in ROM, and the host about to select a bank, both with the
invariant and a next state. -/
theorem witness_StepKeepsTheInvariant :
    let running : State := { lab with pc := 0x2000 }
    let idle : State := { lab with inCall := false, hostQueue := [.act (.selectBank 0 1)] }
    (running.Inv ∧ ∃ t, step running = .next t) ∧ (idle.Inv ∧ ∃ t, step idle = .next t) :=
  ⟨⟨{ lab_inv with }, _, rfl⟩, { lab_inv with running := nofun }, _, rfl⟩

/-- Both poll points, with a poll that services and one that faults; one observer of each kind, with an
answer and with a configuration error; an unknown opcode under both policies. -/
theorem witness_IterationPollsAndFiresObservers :
    let asserted := interrupted 0x0203 0xFF 0x00 [] ["vblank"]
    let late (s : State) : State := { s with config := { s.config with pollPoint := .afterStep } }
    let observed : State := { lab with observers := ⟨1, 1, 1⟩ }
    let failing : State := { labError with observers := ⟨1, 1, 1⟩ }
    let nmiOnBare : State := { bare with nmi := ["vblank"] }
    (asserted.config.pollPoint = .beforeStep ∧ (∃ s1, poll asserted = .ok ((), s1)) ∧
      (late asserted).config.pollPoint = .afterStep ∧
      (∃ s2, fireObservers .beforeInstruction observed.observers.before observed = .ok ((), s2)) ∧
      ∃ f, fireObservers .beforeInstruction failing.observers.before failing = .error f) ∧
    (nmiOnBare.config.pollPoint = .beforeStep ∧ (∃ f, poll nmiOnBare = .error f) ∧ nmiOnBare.inCall = true ∧
      ∃ f, beginIteration nmiOnBare = .error f) ∧
    ((∃ t1, poll (foldResult 0x0202 ⟨0xEA, 2, false⟩ (late asserted)) = .ok ((), t1)) ∧
      ∃ f, poll (foldResult 0x0202 ⟨0xEA, 2, false⟩ (late nmiOnBare)) = .error f) ∧
    (∀ (r : StepResult) (pc0 : Word) (t1 t2 : State), t1 = foldResult pc0 r observed →
      fireObservers .afterInstruction t1.observers.after t1 = .ok ((), t2) →
      t2.options.unknownInstructionIsFatal = false ∧
      ∃ f, fireObservers (.unknownOpcode r.opcode) t2.observers.unknown t2 = .error f) ∧
    (∀ (r : StepResult) (pc0 : Word) (fatal : Bool),
      let t1 := foldResult pc0 r { State.reset with
        options := { ExecutionOptions.none with unknownInstructionIsFatal := fatal } }
      fireObservers .afterInstruction t1.observers.after t1 = .ok ((), t1) ∧
      fireObservers (.unknownOpcode r.opcode) t1.observers.unknown t1 = .ok ((), t1) ∧
      t1.options.unknownInstructionIsFatal = fatal) ∧
    ((StepResult.mk 0xEA 2 false).unknown = false ∧ (StepResult.mk 0x02 1 true).unknown = true) ∧
    (∃ f, invokeHook .beforeInstruction failing = .error f) :=
  ⟨⟨rfl, ⟨_, rfl⟩, rfl, ⟨_, rfl⟩, _, rfl⟩, ⟨rfl, ⟨_, rfl⟩, rfl, _, rfl⟩,
    ⟨⟨_, rfl⟩, _, rfl⟩, fun _ _ _ _ h1 h2 => by subst h1; cases h2; exact ⟨rfl, _, rfl⟩,
    fun _ _ _ => ⟨rfl, rfl, rfl⟩, ⟨rfl, rfl⟩, _, rfl⟩
end Sys2Proof.Machine.Tests
end

/-! ## The status register as a number and as eight flags (10_state.md R24) -/

section
namespace Sys2Proof.Machine

/-- A flag as a number is the binary digit of `P` at the flag's position. -/
theorem getFlag_toNat (f : Flag) (p : Byte) : (getFlag f p).toNat = p.toNat / 2 ^ f.bit % 2 :=
  Nat.toNat_testBit p.toNat f.bit

/-- R24: the binary expansion of `P`, one digit per flag. -/
theorem status_toNat (p : Byte) : p.toNat = (getFlag .n p).toNat * 128 +
    (getFlag .v p).toNat * 64 + (getFlag .u p).toNat * 32 + (getFlag .b p).toNat * 16 +
    (getFlag .d p).toNat * 8 + (getFlag .i p).toNat * 4 + (getFlag .z p).toNat * 2 +
    (getFlag .c p).toNat := by
  have hlt : p.toNat < 256 := p.isLt
  simp only [getFlag_toNat, Flag.bit]
  omega

/-- The host's write of a flag always succeeds and is a write of `P` alone. -/
theorem hostOperation_setFlag (f : Flag) (b : Bool) (s : State) :
    hostOperation (.setFlag f b) s = .ok ((), { s with p := putFlag f b s.p }) := rfl

/-- Settles O5: the binary expansion of `P`, read after write of one flag, and the host's write. -/
theorem statusRegisterPacksEightFlags : Obligations.StatusRegisterPacksEightFlags :=
  ⟨status_toNat, getFlag_putFlag, hostOperation_setFlag⟩

end Sys2Proof.Machine
end

/-! ## Add with carry from the raw sum (40_step_addressing_flags.md R141) -/

section
namespace Sys2Proof.Machine

/-- The sign bit of a byte is its bit 7. -/
theorem byte_msb_eq_getLsbD (v : Byte) : v.msb = v.getLsbD 7 := BitVec.msb_eq_getLsbD_last v

/-- Masking a byte with `$80` tests its sign bit. -/
theorem byte_and_0x80_ne_zero (v : Byte) : (v &&& 0x80#8 != 0x00#8) = v.msb := by
  have hmask : v &&& 0x80#8 = if v.getLsbD 7 then 0x80#8 else 0x00#8 := BitVec.and_twoPow v 7
  rw [hmask, byte_msb_eq_getLsbD]
  cases v.getLsbD 7 <;> decide

/-- The byte of a sum is the raw sum modulo 256. -/
theorem addWithCarry_value_toNat (a b : Byte) (cin : Bool) :
    (addWithCarry a b cin).value.toNat = (a.toNat + b.toNat + cin.toNat) % 256 :=
  BitVec.toNat_ofNat _ 8

/-- Carry is the ninth bit of the raw sum. -/
theorem addWithCarry_carry (a b : Byte) (cin : Bool) :
    (addWithCarry a b cin).carry = decide (256 ≤ a.toNat + b.toNat + cin.toNat) := rfl

/-- Zero speaks of the byte kept, so a raw sum of 256 sets it. -/
theorem addWithCarry_zero (a b : Byte) (cin : Bool) :
    (addWithCarry a b cin).zero = decide ((a.toNat + b.toNat + cin.toNat) % 256 = 0) := by
  have hzero : (addWithCarry a b cin).zero = decide ((addWithCarry a b cin).value = 0x00#8) := rfl
  rw [hzero, ← addWithCarry_value_toNat]
  exact decide_eq_decide.2 BitVec.toNat_eq

theorem addWithCarry_negative (a b : Byte) (cin : Bool) :
    (addWithCarry a b cin).negative = (addWithCarry a b cin).value.getLsbD 7 :=
  byte_msb_eq_getLsbD _

/-- Overflow by the sign bits: the operands agree and the result differs from them. -/
theorem addWithCarry_overflow (a b : Byte) (cin : Bool) :
    (addWithCarry a b cin).overflow =
      (a.getLsbD 7 == b.getLsbD 7 && (addWithCarry a b cin).value.getLsbD 7 != a.getLsbD 7) := by
  simp only [← byte_msb_eq_getLsbD]
  rfl

/-- R141's two tests for signed overflow agree on any two operand bytes and any result byte. -/
theorem signsAgree_and_differ_eq_mask (a b r : Byte) :
    (a.getLsbD 7 == b.getLsbD 7 && r.getLsbD 7 != a.getLsbD 7) =
      ((a ^^^ r) &&& (b ^^^ r) &&& 0x80#8 != 0x00#8) := by
  rw [byte_and_0x80_ne_zero, byte_msb_eq_getLsbD, BitVec.getLsbD_and, BitVec.getLsbD_xor,
    BitVec.getLsbD_xor]
  cases a.getLsbD 7 <;> cases b.getLsbD 7 <;> cases r.getLsbD 7 <;> rfl

/-- Settles O6: each field of the result from the raw sum, and Overflow in its second form. -/
theorem addWithCarryFollowsTheRawSum : Obligations.AddWithCarryFollowsTheRawSum := fun a b cin =>
  ⟨addWithCarry_value_toNat a b cin, addWithCarry_carry a b cin, addWithCarry_zero a b cin,
    addWithCarry_negative a b cin, addWithCarry_overflow a b cin,
    (addWithCarry_overflow a b cin).trans (signsAgree_and_differ_eq_mask a b _)⟩

end Sys2Proof.Machine
end

/-! ## What the flag helpers write (40_step_addressing_flags.md R140, R143, R148) -/

section
namespace Sys2Proof.Machine

/-- Reading a flag after a compare. -/
@[simp] theorem getFlag_compareStatus (g : Flag) (r : CompareResult) (p : Byte) :
    getFlag g (r.status p) =
      if g = .n then r.negative else if g = .z then r.zero else if g = .c then r.carry
      else getFlag g p := by
  simp [CompareResult.status]

/-- Reading a flag after BIT; Carry is among the flags kept. -/
@[simp] theorem getFlag_bitTest (g : Flag) (a m p : Byte) :
    getFlag g (bitTest a m p) =
      if g = .n then m.getLsbD 7 else if g = .v then m.getLsbD 6
      else if g = .z then (a &&& m) == 0x00#8 else getFlag g p := by
  simp [bitTest]

/-- Compare's Negative is bit 7 of the difference. -/
theorem compareBytes_negative (reg v : Byte) :
    (compareBytes reg v).negative = (reg - v).getLsbD 7 := byte_msb_eq_getLsbD _

/-- Settles O9: each helper's written flags and its frame, read off its one `getFlag` equation. -/
theorem flagHelpersWriteTheirFlags : Obligations.FlagHelpersWriteTheirFlags := by
  refine ⟨fun v p => ?setZN, fun reg v p q hq => ?compare, fun a m p => ?bitTest⟩
  case setZN =>
    refine ⟨by simp, ?_, fun f hz hn => by simp [hz, hn]⟩
    simp [byte_msb_eq_getLsbD]
  case compare =>
    subst hq
    refine ⟨by simp [compareBytes], ?_, ?_, fun f hc hz hn => by simp [hc, hz, hn]⟩
    · simp [compareBytes, beq_eq_decide]
    · simp [compareBytes_negative]
  case bitTest =>
    exact ⟨by simp, by simp, by simp, fun f hz hv hn => by simp [hz, hv, hn]⟩

end Sys2Proof.Machine
end

/-! ## Decoding and encoding (30_encoding.md R90 to R95, R98) -/

section
namespace Sys2Proof.Machine

/-- The page-cross extra R160 gives an instruction. -/
def crossExtra (i : Instr) : Nat := if paysOnCrossing i.mnemonic && canCross i.operand then 1 else 0

/-- The row of the default table that the class table of R161 gives an instruction. -/
def classRow (i : Instr) : TableRow :=
  ⟨i.opcode, .documented i.mnemonic, i.operand.mode, i.length, classCycles i.mnemonic i.operand,
    crossExtra i, isRelative i.operand⟩

end Sys2Proof.Machine

namespace Sys2Proof.Laws.Encoding

/-- The opcode map has every instruction's opcode byte, with the format that spells it. -/
theorem template_spells : ∀ i : Instr, Statement i
  | .tax => tax | .tay => tay | .txa => txa | .tya => tya | .tsx => tsx | .txs => txs | .inx => inx
  | .iny => iny | .dex => dex | .dey => dey | .clc => clc | .sec => sec | .cli => cli | .sei => sei
  | .cld => cld | .sed => sed | .clv => clv | .nop => nop | .ldaImm nn => ldaImm nn
  | .ldaZp nn => ldaZp nn | .ldaZpX nn => ldaZpX nn | .ldaAbs w => ldaAbs w
  | .ldaAbsX w => ldaAbsX w | .ldaAbsY w => ldaAbsY w | .ldaIzX nn => ldaIzX nn
  | .ldaIzY nn => ldaIzY nn | .ldxImm nn => ldxImm nn | .ldxZp nn => ldxZp nn
  | .ldxZpY nn => ldxZpY nn | .ldxAbs w => ldxAbs w | .ldxAbsY w => ldxAbsY w
  | .ldyImm nn => ldyImm nn | .ldyZp nn => ldyZp nn | .ldyZpX nn => ldyZpX nn
  | .ldyAbs w => ldyAbs w | .ldyAbsX w => ldyAbsX w | .adcImm nn => adcImm nn
  | .adcZp nn => adcZp nn | .adcZpX nn => adcZpX nn | .adcAbs w => adcAbs w
  | .adcAbsX w => adcAbsX w | .adcAbsY w => adcAbsY w | .adcIzX nn => adcIzX nn
  | .adcIzY nn => adcIzY nn | .sbcImm nn => sbcImm nn | .sbcZp nn => sbcZp nn
  | .sbcZpX nn => sbcZpX nn | .sbcAbs w => sbcAbs w | .sbcAbsX w => sbcAbsX w
  | .sbcAbsY w => sbcAbsY w | .sbcIzX nn => sbcIzX nn | .sbcIzY nn => sbcIzY nn
  | .andImm nn => andImm nn | .andZp nn => andZp nn | .andZpX nn => andZpX nn
  | .andAbs w => andAbs w | .andAbsX w => andAbsX w | .andAbsY w => andAbsY w
  | .andIzX nn => andIzX nn | .andIzY nn => andIzY nn | .oraImm nn => oraImm nn
  | .oraZp nn => oraZp nn | .oraZpX nn => oraZpX nn | .oraAbs w => oraAbs w
  | .oraAbsX w => oraAbsX w | .oraAbsY w => oraAbsY w | .oraIzX nn => oraIzX nn
  | .oraIzY nn => oraIzY nn | .eorImm nn => eorImm nn | .eorZp nn => eorZp nn
  | .eorZpX nn => eorZpX nn | .eorAbs w => eorAbs w | .eorAbsX w => eorAbsX w
  | .eorAbsY w => eorAbsY w | .eorIzX nn => eorIzX nn | .eorIzY nn => eorIzY nn
  | .cmpImm nn => cmpImm nn | .cmpZp nn => cmpZp nn | .cmpZpX nn => cmpZpX nn
  | .cmpAbs w => cmpAbs w | .cmpAbsX w => cmpAbsX w | .cmpAbsY w => cmpAbsY w
  | .cmpIzX nn => cmpIzX nn | .cmpIzY nn => cmpIzY nn | .cpxImm nn => cpxImm nn
  | .cpxZp nn => cpxZp nn | .cpxAbs w => cpxAbs w | .cpyImm nn => cpyImm nn | .cpyZp nn => cpyZp nn
  | .cpyAbs w => cpyAbs w | .bitZp nn => bitZp nn | .bitAbs w => bitAbs w | .staZp nn => staZp nn
  | .staZpX nn => staZpX nn | .staAbs w => staAbs w | .staAbsX w => staAbsX w
  | .staAbsY w => staAbsY w | .staIzX nn => staIzX nn | .staIzY nn => staIzY nn
  | .stxZp nn => stxZp nn | .stxZpY nn => stxZpY nn | .stxAbs w => stxAbs w | .styZp nn => styZp nn
  | .styZpX nn => styZpX nn | .styAbs w => styAbs w | .incZp nn => incZp nn
  | .incZpX nn => incZpX nn | .incAbs w => incAbs w | .incAbsX w => incAbsX w
  | .decZp nn => decZp nn | .decZpX nn => decZpX nn | .decAbs w => decAbs w
  | .decAbsX w => decAbsX w | .jmpAbs w => jmpAbs w | .jmpInd w => jmpInd w | .aslAcc => aslAcc
  | .aslZp nn => aslZp nn | .aslZpX nn => aslZpX nn | .aslAbs w => aslAbs w
  | .aslAbsX w => aslAbsX w | .lsrAcc => lsrAcc | .lsrZp nn => lsrZp nn | .lsrZpX nn => lsrZpX nn
  | .lsrAbs w => lsrAbs w | .lsrAbsX w => lsrAbsX w | .rolAcc => rolAcc | .rolZp nn => rolZp nn
  | .rolZpX nn => rolZpX nn | .rolAbs w => rolAbs w | .rolAbsX w => rolAbsX w | .rorAcc => rorAcc
  | .rorZp nn => rorZp nn | .rorZpX nn => rorZpX nn | .rorAbs w => rorAbs w
  | .rorAbsX w => rorAbsX w | .bcc nn => bcc nn | .bcs nn => bcs nn | .beq nn => beq nn
  | .bne nn => bne nn | .bmi nn => bmi nn | .bpl nn => bpl nn | .bvc nn => bvc nn
  | .bvs nn => bvs nn | .pha => pha | .pla => pla | .php => php | .plp => plp | .jsr w => jsr w
  | .rts => rts | .brk => brk | .rti => rti

/-- The instruction a template gives on an operand byte or an operand word. -/
def fill (nn : Byte) (w : Word) : Template → Instr
  | .one i => i
  | .two mk => mk nn
  | .three mk => mk w

/-- An instruction that a template spells is that template filled with its operand. -/
theorem fill_of_spells {i : Instr} {t : Template} (h : Spells i t) : ∃ nn w, i = fill nn w t := by
  cases t with
  | one j => exact ⟨0, 0, h.1⟩
  | two mk =>
    obtain ⟨nn, hi, -⟩ := h
    exact ⟨nn, 0, hi⟩
  | three mk =>
    obtain ⟨w, hi, -⟩ := h
    exact ⟨0, w, hi⟩

/-- The operand bytes of a template's format (R91). -/
def formatBytes (nn : Byte) (w : Word) : Template → List Byte
  | .one _ => []
  | .two _ => [nn]
  | .three _ => [lowByte w, highByte w]

/-- Whatever its operand, the instruction that template `t` spells has the opcode byte `op`, the
operand bytes of the format, and one row of the class table. -/
def Entry (op : Byte) (t : Template) : Prop :=
  ∀ (nn : Byte) (w : Word), encode (fill nn w t) = op :: formatBytes nn w t ∧
    Machine.classRow (fill nn w t) = Machine.classRow (fill 0 0 t)

/-- The matrix of R95, entry by entry. -/
theorem opcodeRow_entry (n : Nat) : ∀ e ∈ opcodeRow n, Entry e.1 e.2 := by
  unfold opcodeRow
  split <;> simp only [opcodeRow0, opcodeRow1, opcodeRow2, opcodeRow3, opcodeRow4, opcodeRow5,
    opcodeRow6, opcodeRow7, opcodeRow8, opcodeRow9, opcodeRowA, opcodeRowB, opcodeRowC, opcodeRowD,
    opcodeRowE, opcodeRowF, List.forall_mem_cons, List.not_mem_nil, false_imp_iff, implies_true,
    and_true]
  all_goals and_intros <;> exact fun _ _ => ⟨rfl, rfl⟩

/-- The template found for a byte is an entry of the matrix under that byte. -/
theorem entry_of_template {op : Byte} {t : Template} (h : template op = some t) : Entry op t := by
  obtain ⟨before, after, hrow, -⟩ := List.lookup_eq_some_iff.1 h
  exact opcodeRow_entry (op.toNat / 16) (op, t) (by simp [hrow])

/-- The decoder reads an instruction's own bytes back and leaves the rest (R92, R93). -/
theorem decode_encode (i : Instr) (rest : List Byte) : decode (encode i ++ rest) = .ok (i, rest) := by
  obtain ⟨t, ht, hs⟩ := template_spells i
  cases t with
  | one j =>
    obtain ⟨rfl, hb⟩ := hs
    simp only [encode, hb, List.singleton_append, decode, ht]
  | two mk =>
    obtain ⟨nn, hi, hb⟩ := hs
    simp only [encode, hb, List.cons_append, List.nil_append, decode, ht, ← hi]
  | three mk =>
    obtain ⟨w, hi, hb⟩ := hs
    simp only [encode, hb, List.cons_append, List.nil_append, decode, ht, Machine.wordOf_high_low, ← hi]

/-- What decodes is the encoding of the instruction it decodes to, with the rest behind it. -/
theorem eq_encode_of_decode {bytes rest : List Byte} {i : Instr} (h : decode bytes = .ok (i, rest)) :
    bytes = encode i ++ rest := by
  cases bytes with
  | nil => cases h
  | cons op tail =>
    simp only [decode] at h
    cases ht : template op with
    | none => simp [ht] at h
    | some t =>
      have he : ∀ nn w, encode (fill nn w t) = op :: formatBytes nn w t := fun nn w =>
        (entry_of_template ht nn w).1
      simp only [ht] at h
      cases t with
      | one j =>
        cases h
        simp [show encode i = [op] from he 0 0]
      | two mk =>
        cases tail with
        | nil => cases h
        | cons nn tail =>
          cases h
          simp [show encode (mk nn) = [op, nn] from he nn 0]
      | three mk =>
        match tail, h with
        | [], h => cases h
        | [_], h => cases h
        | ll :: hh :: tail, h =>
          cases h
          simp [show encode (mk (wordOf hh ll)) = [op, ll, hh] by
            simpa [fill, formatBytes] using he 0 (wordOf hh ll)]

/-- Settles O1: the two directions of the round trip, by the format of the opcode's template. -/
theorem decodeAndEncodeAgree : Obligations.DecodeAndEncodeAgree :=
  ⟨decode_encode, fun _ _ _ => eq_encode_of_decode⟩

/-- The decoder knows a byte exactly when the opcode map has it. -/
theorem decode_unknown_iff (op : Byte) (rest : List Byte) :
    decode (op :: rest) = .error (.unknownOpcode op) ↔ template op = none := by
  simp only [decode]
  cases template op with
  | none => simp
  | some t =>
    cases t with
    | one i => simp
    | two mk => cases rest <;> simp
    | three mk => rcases rest with _ | ⟨ll, _ | ⟨hh, rest⟩⟩ <;> simp

/-- Settles O2: the decoder's unknown bytes are those outside the opcode map, compared byte by byte
with the list of R98. -/
theorem unknownBytesAreTheListedOnes : Obligations.UnknownBytesAreTheListedOnes := by
  intro op rest
  rw [decode_unknown_iff, ← Option.isNone_iff_eq_none]
  revert op
  decide +kernel

/-- Settles O3: the thirteen example words of R100, decoded. -/
theorem exampleWordsDecode : Obligations.ExampleWordsDecode := by
  unfold Obligations.ExampleWordsDecode
  decide +kernel

end Sys2Proof.Laws.Encoding
end

/-! ## The default table (30_encoding.md R94, 40_step_addressing_flags.md R160, R161) -/

section
namespace Sys2Proof.Machine

open Laws.Encoding

/-- The default table and the opcode map agree on all 256 bytes. -/
theorem findRow_of_template : ∀ op : Byte, (template op).all (fun t =>
    findRow defaultTable op == some (classRow (fill 0 0 t))) = true := by
  decide +kernel

/-- The default table finds every instruction's row of R161 under its opcode byte. -/
theorem findRow_default (i : Instr) : findRow defaultTable i.opcode = some (classRow i) := by
  obtain ⟨t, ht, hs⟩ := template_spells i
  obtain ⟨nn, w, hi⟩ := fill_of_spells hs
  have hfill := (entry_of_template ht nn w).2
  have hfound := findRow_of_template i.opcode
  rw [ht] at hfound
  rw [← hi] at hfill
  rw [hfill]
  simpa using hfound

/-- What an instruction's opcode, length, class cycles and extra evaluate to, its rule's table says. -/
theorem tableSays (i : Instr) :
    TableSays i i.opcode i.length (classCycles i.mnemonic i.operand) (crossExtra i) :=
  ⟨rfl, rfl, findRow_default i⟩

/-- R160: the cycles of a step as a sum of products. -/
theorem stepCycles_eq (c : Config) (row : TableRow) (e : StepEvents) : stepCycles c row e =
    row.cycles + e.crossed.toNat * row.pageCrossExtra +
      (row.branchExtra && e.branchTaken).toNat * c.branchTakenCycles +
      (row.branchExtra && e.branchOtherPage).toNat * c.branchPageCycles := by
  simp only [stepCycles]
  cases e.crossed <;> cases row.branchExtra && e.branchTaken <;>
    cases row.branchExtra && e.branchOtherPage <;> simp

/-- Settles O4: the row found for each instruction, the sum of a step's cycles, and the counts of the
default table. -/
theorem defaultCyclesFollowTheClassTable : Obligations.DefaultCyclesFollowTheClassTable :=
  ⟨findRow_default, stepCycles_eq, rfl, rfl, rfl, by decide +kernel, by decide +kernel⟩

end Sys2Proof.Machine
end

/-! ## The stored Break and Unused bits during a call (10_state.md R29, R30) -/

section
namespace Sys2Proof.Machine

/-- Running the operation with the reserved bits that `m` selects turned over gives the same answer
with them turned over. -/
abbrev Op.CommutesWithFlip {α : Type} (m : Byte) (x : Op α) : Prop :=
  Op.CommutesOn (fun _ => True) (State.disguise m id id) x

section
variable (m : Byte)

/-- Every access, and so every behavior, commutes with the change. -/
theorem flipCommuter : Commuter (fun _ => True) m id id := Commuter.flip (fun _ => trivial) m

theorem modify_flip {f : State → State}
    (h : ∀ s : State, f (s.disguise m id id) = (f s).disguise m id id) :
    Op.CommutesWithFlip m (modify f : Op Unit) :=
  .modify h fun _ _ => trivial

/-- Interrupt service: the status copy has Break clear and Unused set whatever is stored (R322). -/
theorem serviceInterrupt_flip (vector : Word) : Op.CommutesWithFlip m (serviceInterrupt vector) :=
  .get (fun _ => rfl) fun _ =>
    ((flipCommuter m).enterException _ pushedByInterrupt_flip vector).bind fun _ =>
      modify_flip m fun _ => rfl

/-- The poll looks at InterruptDisable alone of `P`. -/
theorem poll_flip : Op.CommutesWithFlip m poll := by
  refine .get (fun s => ?_) fun s => ?_
  · rw [State.flag_disguise (f := .i) (by decide) (by decide)]
    rfl
  · split
    · refine (serviceInterrupt_flip m _).bind fun _ => modify_flip m fun s => ?_
      unfold acknowledgeNmi
      rw [show (s.disguise m id id).config = s.config from rfl]
      split <;> rfl
    · split
      · exact (serviceInterrupt_flip m _).bind fun _ => modify_flip m fun _ => rfl
      · exact .pure _

theorem pollAt_flip (place : PollPoint) : Op.CommutesWithFlip m (pollAt place) := by
  refine .get (fun _ => rfl) fun s => ?_
  split
  · exact poll_flip m
  · exact .pure _

theorem beginIteration_flip : Op.CommutesWithFlip m beginIteration :=
  (pollAt_flip m _).bind fun _ => .get (fun _ => rfl) fun _ =>
    (fireObservers_flip (fun _ => trivial) m _ _).bind fun _ => modify_flip m fun _ => rfl

theorem fetchByte_flip : Op.CommutesWithFlip m fetchByte :=
  .get (fun _ => rfl) fun _ => ((flipCommuter m).read _).bind fun b =>
    (modify_flip m (f := fun s => s.setPc (s.pc + 1)) fun _ => rfl).bind fun _ => .pure b

theorem fetchOperand_flip (mode : Mode) : Op.CommutesWithFlip m (fetchOperand mode) := by
  have one : ∀ f, Op.CommutesWithFlip m (fetchWith f) := fun f =>
    (fetchByte_flip m).bind fun _ => .pure _
  have two : ∀ f, Op.CommutesWithFlip m (fetchWordWith f) := fun f =>
    (fetchByte_flip m).bind fun _ => (fetchByte_flip m).bind fun _ => .pure _
  cases mode with
  | implied | accumulator => exact .pure _
  | absolute | absoluteX | absoluteY | indirect =>
    simp only [fetchOperand]
    exact two _
  | _ => exact one _

theorem fetchInstruction_flip : Op.CommutesWithFlip m fetchInstruction := by
  refine (fetchByte_flip m).bind fun opcode => .get (fun _ => rfl) fun s => ?_
  split
  · exact .pure _
  · exact (fetchOperand_flip m _).bind fun _ => .pure _

/-- The unknown-opcode observers and the fatal policy. -/
theorem reportUnknown_flip (pc0 : Word) (r : StepResult) :
    Op.CommutesWithFlip m (reportUnknown pc0 r) := by
  unfold reportUnknown
  split
  · refine .get (fun _ => rfl) fun _ => (fireObservers_flip (fun _ => trivial) m _ _).bind fun _ =>
      .get (fun _ => rfl) fun s => ?_
    split
    · exact .raise fun _ => rfl
    · exact .pure _
  · exact .pure _

/-- The stop conditions look at no flag. -/
theorem evaluateStop_flip (pc0 : Word) (opcode : Byte) (s : State) :
    evaluateStop pc0 opcode (s.disguise m id id) = (evaluateStop pc0 opcode s).disguise m id id := by
  unfold evaluateStop
  rw [show stopConditions (s.disguise m id id).options (s.disguise m id id).call
    (s.disguise m id id).pc pc0 opcode = stopConditions s.options s.call s.pc pc0 opcode from rfl]
  split <;> rfl

theorem concludeStep_flip (pc0 : Word) (r : StepResult) :
    Op.CommutesWithFlip m (concludeStep pc0 r) :=
  (modify_flip m (f := foldResult pc0 r) fun _ => rfl).bind fun _ =>
    (pollAt_flip m _).bind fun _ => .get (fun _ => rfl) fun _ =>
      (fireObservers_flip (fun _ => trivial) m _ _).bind fun _ =>
        (reportUnknown_flip m pc0 r).bind fun _ => modify_flip m (evaluateStop_flip m pc0 r.opcode)

/-- What the step does with what it fetched. -/
theorem runFetched_flip (pc0 : Word) (found : Fetched) (s : State) :
    runFetched pc0 found (s.disguise m id id) =
      mapResult (State.disguise m id id) (runFetched pc0 found s) := by
  cases found with
  | unknown opcode => exact complete_map (concludeStep_flip m _ _ s trivial).1
  | known row o =>
    simp only [runFetched, (flipCommuter m).perform row pc0 o (s := s) trivial]
    cases perform row pc0 o s with
    | next t => exact complete_map (concludeStep_flip m _ _ t trivial).1
    | fault f => rfl
    | refused r => rfl

/-- One iteration of the run loop. -/
theorem iteration_flip (s : State) :
    iteration (s.disguise m id id) = mapResult (State.disguise m id id) (iteration s) := by
  unfold iteration
  rw [(beginIteration_flip m s trivial).1]
  cases beginIteration s with
  | error f => rfl
  | ok p =>
    obtain ⟨_, s1⟩ := p
    simp only [mapAnswer]
    rw [(fetchInstruction_flip m s1 trivial).1]
    cases fetchInstruction s1 with
    | error f => rfl
    | ok q => exact runFetched_flip m s1.pc q.1 q.2

end

/-- Settles O46: a step during a call is an iteration, each item of which commutes with turning the
reserved bits over. -/
theorem reservedFlagsAreUnobservable : Obligations.ReservedFlagsAreUnobservable := by
  intro m s hcall
  have hcall' : (s.disguise m id id).inCall = true := hcall
  rw [State.flipReserved_eq_disguise, step, step, if_pos hcall, if_pos hcall']
  exact iteration_flip m s

end Sys2Proof.Machine
end

/-! ## The interrupt registry (60_exceptions.md R310 to R313) -/

section
namespace Sys2Proof.Machine

/-- R310: adding puts the name in with its flag and removes any earlier flag of it. -/
theorem mem_addIrq {irq : List IrqSource} {name : String} {auto : Bool} {e : IrqSource} :
    e ∈ addIrq irq name auto ↔ e = ⟨name, auto⟩ ∨ e ∈ irq ∧ e.name ≠ name := by
  simp [addIrq, or_comm]

/-- R311: removing takes the name out, other names stay. -/
theorem mem_removeIrq {irq : List IrqSource} {name : String} {e : IrqSource} :
    e ∈ removeIrq irq name ↔ e ∈ irq ∧ e.name ≠ name := by
  simp [removeIrq]

/-- Sources that are left out leave no name twice. -/
theorem nodup_names_filter {irq : List IrqSource} (h : (irq.map IrqSource.name).Nodup)
    (p : IrqSource → Bool) : ((irq.filter p).map IrqSource.name).Nodup :=
  h.sublist (List.filter_sublist.map _)

theorem nodup_names_removeIrq {irq : List IrqSource} (h : (irq.map IrqSource.name).Nodup)
    (name : String) : ((removeIrq irq name).map IrqSource.name).Nodup :=
  nodup_names_filter h _

/-- The name added is new to the sources it is put behind. -/
theorem nodup_names_addIrq {irq : List IrqSource} (h : (irq.map IrqSource.name).Nodup)
    (name : String) (auto : Bool) : ((addIrq irq name auto).map IrqSource.name).Nodup := by
  rw [addIrq, List.map_append, List.nodup_append']
  refine ⟨nodup_names_removeIrq h name, List.nodup_singleton _, ?_⟩
  simp

/-- R312: the NMI sources are a set of names. -/
theorem mem_addNmi {nmi : List String} {name n : String} :
    n ∈ addNmi nmi name ↔ n = name ∨ n ∈ nmi := by
  unfold addNmi
  split
  · rename_i h
    exact ⟨.inr, fun hn => hn.elim (fun e => e ▸ List.contains_iff_mem.1 h) id⟩
  · simp [or_comm]

theorem mem_removeNmi {nmi : List String} {name n : String} :
    n ∈ removeNmi nmi name ↔ n ∈ nmi ∧ n ≠ name := by
  simp [removeNmi]

theorem nodup_addNmi {nmi : List String} (h : nmi.Nodup) (name : String) :
    (addNmi nmi name).Nodup := by
  unfold addNmi
  split
  · exact h
  · rename_i hn
    exact List.nodup_append'.2 ⟨h, List.nodup_singleton _, by simpa [List.disjoint_left] using hn⟩

theorem nodup_removeNmi {nmi : List String} (h : nmi.Nodup) (name : String) :
    (removeNmi nmi name).Nodup := h.filter _

/-- R313: the IRQ line is asserted by any source. -/
theorem State.irqLine_iff (s : State) : s.irqLine = true ↔ s.irq ≠ [] := by simp [State.irqLine]

/-- R313: and so is the NMI line. -/
theorem State.nmiLine_iff (s : State) : s.nmiLine = true ↔ s.nmi ≠ [] := by simp [State.nmiLine]

/-- Settles O48: membership and uniqueness of both collections, the host's operations, the lines. -/
theorem registryIsAMapAndASet : Obligations.RegistryIsAMapAndASet :=
  ⟨fun _ name auto _ => ⟨mem_addIrq, mem_removeIrq,
      fun h => ⟨nodup_names_addIrq h name auto, nodup_names_removeIrq h name⟩⟩,
    fun _ name _ => ⟨mem_addNmi, mem_removeNmi,
      fun h => ⟨nodup_addNmi h name, nodup_removeNmi h name⟩⟩,
    fun s _ _ => ⟨rfl, rfl, rfl, rfl, s.irqLine_iff, s.nmiLine_iff⟩⟩

end Sys2Proof.Machine
end

/-! ## Every step keeps the invariant -/

section
namespace Sys2Proof.Machine

/-- Selecting a bank of a segment that exists (20_memory.md R62). -/
theorem selectBank_of_segment {s : State} {id : Nat} {g : Segment} (hg : s.mem.segments[id]? = some g)
    (bank : Nat) : selectBank id bank s =
      if bank < g.banks.length then
        .ok ((), s.setMem { s.mem with segments := s.mem.segments.set id { g with active := bank } })
      else .error (.configuration .bankOutOfRange s) := by
  simp only [selectBank, Op.get_bind, hg]
  split <;> rfl

/-- What selecting a bank that answers did. -/
theorem selectBank_eq {s t : State} {id bank : Nat} (h : selectBank id bank s = .ok ((), t)) :
    ∃ g, s.mem.segments[id]? = some g ∧ bank < g.banks.length ∧
      t = s.setMem { s.mem with segments := s.mem.segments.set id { g with active := bank } } := by
  cases hg : s.mem.segments[id]? with
  | none => simp [selectBank, hg] at h
  | some g =>
    rw [selectBank_of_segment hg] at h
    split at h
    · rename_i hb
      cases h
      exact ⟨g, rfl, hb, rfl⟩
    · cases h

/-- What mapping a segment that answers did (20_memory.md R62). -/
theorem mapSegment_eq {s t : State} {config : Option Nat} {name : String} {origin size : Nat}
    {banks : List Nat} (h : mapSegment config name origin size banks s = .ok ((), t)) :
    ∃ c, (config = none ∧ c = s.mem.cfg ∨ config = some c ∧ c < s.config.numConfigs) ∧
      banks ≠ [] ∧ origin + size ≤ s.config.memSize ∧
      t = s.setMem (s.mem.addSegment c ⟨name, origin, size, banks, 0⟩) := by
  obtain ⟨c, u, ht, -⟩ := Op.bind_ok_iff.1 h
  obtain ⟨rfl, hc⟩ := targetConfiguration_eq ht
  rw [mapSegment_of_target ht] at h
  split at h
  · cases h
  · rename_i hb
    split at h
    · rename_i hle
      cases h
      exact ⟨c, hc, by simpa using hb, hle, rfl⟩
    · cases h

/-! ### Memory operations -/

/-- A backing that names a known segment still does when there are more of them. -/
theorem Backing.known_mono {segments segments' : List Segment}
    (h : segments.length ≤ segments'.length) {b : Option Backing}
    (hb : b.all (Backing.known segments) = true) : b.all (Backing.known segments') = true := by
  rcases b with _ | _ | id | _
  · rfl
  · rfl
  · simp only [Option.all_some, Backing.known, decide_eq_true_eq] at hb ⊢
    omega
  · rfl

variable {s : State} (h : s.Inv)
include h

/-- A store keeps the canonical form, and touches nothing else the invariant speaks of. -/
theorem State.Inv.store (k : Nat) (v : Byte) : (s.setMem (s.mem.store k v)).Inv :=
  { h with memory := Memory.wf_store h.memory k v }

/-- One more mapping in range. -/
theorem State.Inv.install {r : Mapping} (hc : r.config < s.config.numConfigs)
    (hb : r.base + r.length ≤ s.config.memSize)
    (hr : r.rd.all (Backing.known s.mem.segments) = true)
    (hw : r.wr.all (Backing.known s.mem.segments) = true) : (s.setMem (s.mem.install r)).Inv :=
  { h with maps := List.forall_mem_cons.2 ⟨⟨hc, hb, hr, hw⟩, h.maps⟩ }

/-- Segments changed so that none goes and each has an active bank in range. -/
theorem State.Inv.segmentsTo {segments : List Segment}
    (hlen : s.mem.segments.length ≤ segments.length)
    (hact : ∀ g ∈ segments, g.active < g.banks.length) :
    (s.setMem { s.mem with segments := segments }).Inv :=
  { h with
    maps := fun r hr => by
      obtain ⟨hc, hb, hrd, hwr⟩ := h.maps r hr
      exact ⟨hc, hb, Backing.known_mono hlen hrd, Backing.known_mono hlen hwr⟩
    segments := hact }

/-- One more segment, with its mapping. -/
theorem State.Inv.addSegment {c : Nat} {g : Segment} (hc : c < s.config.numConfigs)
    (hb : g.origin + g.size ≤ s.config.memSize) (hact : g.active < g.banks.length) :
    (s.setMem (s.mem.addSegment c g)).Inv := by
  have hsegs : (s.setMem { s.mem with segments := s.mem.segments ++ [g] }).Inv :=
    h.segmentsTo (by simp) (by simpa [or_imp, forall_and, hact] using h.segments)
  exact hsegs.install hc hb (by simp [Backing.known]) (by simp [Backing.known])

/-- A bank in range becomes active. -/
theorem State.Inv.selectBank {id bank : Nat} {g : Segment} (hb : bank < g.banks.length) :
    (s.setMem { s.mem with segments := s.mem.segments.set id { g with active := bank } }).Inv :=
  h.segmentsTo (by simp) fun g' hg' => by
    rcases List.mem_or_eq_of_mem_set hg' with hm | rfl
    · exact h.segments g' hm
    · exact hb

/-- A registry without repeated names. -/
theorem State.Inv.withRegistry {irq : List IrqSource} {nmi : List String}
    (hi : (irq.map IrqSource.name).Nodup) (hn : nmi.Nodup) : (s.withRegistry irq nmi).Inv :=
  { h with irq := hi, nmi := hn }

omit h

/-! ### Hooks -/

/-- The invariant passes from the one state to the other. -/
def KeepsInv (s t : State) : Prop := s.Inv → t.Inv

theorem KeepsInv.composable : Composable KeepsInv where
  refl _ h := h
  trans _ _ _ h1 h2 h := h2 (h1 h)

theorem KeepsInv.script (s : State) (bytes : List Byte) (replies : List HookReply)
    (calls : List HookCall) (n : Nat) : KeepsInv s
      { s with hostBytes := bytes, replies := replies, hookCalls := calls, freeCount := n } :=
  fun h => { h with }

/-- A target configuration is in range: the current one by the invariant, another by its check. -/
theorem State.Inv.target {s : State} (h : s.Inv) {config : Option Nat} {c : Nat}
    (hc : config = none ∧ c = s.mem.cfg ∨ config = some c ∧ c < s.config.numConfigs) :
    c < s.config.numConfigs := by
  rcases hc with ⟨-, rfl⟩ | ⟨-, hc⟩
  · exact h.cfg
  · exact hc

/-- A mapping on backing bytes or a device. -/
theorem installRange_keepsInv {rd wr : Option Backing} (config : Option Nat) (base length : Nat)
    (hr : ∀ segments, rd.all (Backing.known segments) = true)
    (hw : ∀ segments, wr.all (Backing.known segments) = true) :
    Op.Keeps KeepsInv (installRange config base length rd wr) := by
  intro s _ t e h
  obtain ⟨c, hc, hb, rfl⟩ := installRange_eq e
  exact h.install (h.target hc) hb (hr _) (hw _)

/-- The sides of a register or device mapping name no segment. -/
theorem RegisterMode.sides_known {b : Backing} (hb : ∀ segments, b.known segments = true)
    (mode : RegisterMode) (segments : List Segment) :
    (mode.readSide b).all (Backing.known segments) = true ∧
      (mode.writeSide b).all (Backing.known segments) = true := by
  cases mode <;> simp [RegisterMode.readSide, RegisterMode.writeSide, hb]

/-- Every host action. -/
theorem applyAction_keepsInv (act : HostAction) : Op.Keeps KeepsInv (applyAction act) := by
  have hR := KeepsInv.composable
  have registers : ∀ (mode : RegisterMode) (b : Backing), (∀ segments, b.known segments = true) →
      ∀ config base length, Op.Keeps KeepsInv
        (installRange config base length (mode.readSide b) (mode.writeSide b)) := fun mode b hb _ _ _ =>
    installRange_keepsInv _ _ _ (fun segments => (mode.sides_known hb segments).1)
      fun segments => (mode.sides_known hb segments).2
  cases act with
  | mapRam config base backing offset length =>
    simp only [applyAction, mapRam]
    split
    · exact installRange_keepsInv _ _ _ (fun _ => rfl) fun _ => rfl
    · exact Op.Keeps.raise _
  | mapRom config base backing => exact installRange_keepsInv _ _ _ (fun _ => rfl) fun _ => rfl
  | mapRegister config address cell mode => exact registers mode _ (fun _ => rfl) _ _ _
  | mapDevice config base length port mode => exact registers mode _ (fun _ => rfl) _ _ _
  | mapSegment config name origin size banks =>
    intro s _ t e h
    obtain ⟨c, hc, hbanks, hb, rfl⟩ := mapSegment_eq e
    exact h.addSegment (h.target hc) hb (List.length_pos_iff.2 hbanks)
  | selectBank id bank =>
    intro s _ t e h
    obtain ⟨g, -, hb, rfl⟩ := selectBank_eq e
    exact h.selectBank hb
  | setConfiguration index =>
    intro s _ t e h
    by_cases hi : index < s.config.numConfigs
    · simp only [applyAction, setConfiguration] at e
      rw [Op.bind_of_ok (checkConfiguration_ok hi)] at e
      cases e
      exact { h with cfg := hi }
    · simp only [applyAction, setConfiguration] at e
      rw [Op.bind_of_error (checkConfiguration_error (Nat.not_lt.1 hi))] at e
      cases e
  | setByte index value =>
    exact Op.Keeps.modifyMem (f := fun m => m.store index value) fun s (h : s.Inv) =>
      h.store index value
  | memRead a =>
    exact Op.Keeps.bind hR
      (readWith_keeps hR (fun _ => Op.Keeps.bind hR
        (Op.Keeps.modify fun s => KeepsInv.script s s.hostBytes s.replies _ s.freeCount)
        fun _ => takeFreeByte_keeps fun s n => KeepsInv.script s s.hostBytes s.replies s.hookCalls n) a)
      fun b => Op.Keeps.modify fun s => KeepsInv.script s [b] s.replies s.hookCalls s.freeCount
  | memWrite a v =>
    exact writeWith_keeps hR (fun s k v h => h.store k v)
      (fun port => Op.Keeps.modify fun s =>
        KeepsInv.script s s.hostBytes s.replies (.write port a v :: s.hookCalls) s.freeCount) a v
  | addIrqSource name autoAck =>
    exact Op.Keeps.modify fun s h => h.withRegistry (nodup_names_addIrq h.irq name autoAck) h.nmi
  | removeIrqSource name =>
    exact Op.Keeps.modify fun s h => h.withRegistry (nodup_names_removeIrq h.irq name) h.nmi
  | addNmiSource name =>
    exact Op.Keeps.modify fun s h => h.withRegistry h.irq (nodup_addNmi h.nmi name)
  | removeNmiSource name =>
    exact Op.Keeps.modify fun s h => h.withRegistry h.irq (nodup_removeNmi h.nmi name)

theorem invokeHook_keepsInv (call : HookCall) : Op.Keeps KeepsInv (invokeHook call) :=
  invokeHook_keeps KeepsInv.composable KeepsInv.script applyAction_keepsInv call

theorem memRead_keepsInv (a : Word) : Op.Keeps KeepsInv (memRead a) :=
  memRead_keeps KeepsInv.composable invokeHook_keepsInv a

theorem memWrite_keepsInv (a : Word) (v : Byte) : Op.Keeps KeepsInv (memWrite a v) :=
  memWrite_keeps KeepsInv.composable invokeHook_keepsInv (fun _ k v h => h.store k v) a v

theorem fireObservers_keepsInv (call : HookCall) (n : Nat) :
    Op.Keeps KeepsInv (fireObservers call n) :=
  fireObservers_keeps KeepsInv.composable invokeHook_keepsInv call n

/-! ### An iteration -/

/-- The invariant speaks of no register and no flag, so a behavior keeps it with its accesses. -/
theorem KeepsInv.keeper (m : Mnemonic) (o : Operand) : Keeper KeepsInv m o where
  composable := KeepsInv.composable
  read := memRead_keepsInv
  write := memWrite_keepsInv
  events _ _ h := { h with }
  setA _ _ _ h := { h with }
  setX _ _ _ h := { h with }
  setY _ _ _ h := { h with }
  setSp _ _ _ h := { h with }
  setPc _ _ _ h := { h with }
  setP _ _ _ h := { h with }

/-- More cycles in both counters keep their order. -/
theorem State.Inv.addCycles {s : State} (h : s.Inv) (n : Nat) :
    ({ s with call := s.call.addCycles n, lifetime := s.lifetime.addCycles n } : State).Inv := by
  obtain ⟨hu, he⟩ := h.callCounts
  obtain ⟨hlu, hle, hlc⟩ := h.lifetimeCounts
  exact { h with
    callCounts := ⟨hu, by simp only [ExecutionState.addCycles]; omega⟩
    lifetimeCounts := ⟨hlu, hle, by simp only [ExecutionState.addCycles]; omega⟩ }

/-- R333: the fold of a step of at least one cycle keeps the order of the counters. -/
theorem State.Inv.fold {s : State} (h : s.Inv) (pc0 : Word) {r : StepResult} (hr : 1 ≤ r.cycles) :
    (foldResult pc0 r s).Inv := by
  obtain ⟨hu, he⟩ := h.callCounts
  obtain ⟨hlu, hle, hlc⟩ := h.lifetimeCounts
  refine { h with callCounts := ?_, lifetimeCounts := ?_ }
  · simp only [foldResult, ExecutionState.fold]
    split <;> omega
  · simp only [foldResult, ExecutionState.fold]
    split <;> omega

theorem serviceInterrupt_keepsInv (vector : Word) : Op.Keeps KeepsInv (serviceInterrupt vector) := by
  have hR := KeepsInv.composable
  exact Op.Keeps.bind hR (Op.Keeps.get hR) fun _ =>
    Op.Keeps.bind hR (enterException_keeps hR memRead_keepsInv memWrite_keepsInv
      (fun _ _ h => { h with }) (fun _ _ h => { h with }) (fun _ _ h => { h with }) _ _ _) fun _ =>
        Op.Keeps.modify fun _ h => h.addCycles _

/-- An acknowledgement takes sources out of the registry. -/
theorem State.Inv.acknowledgeNmi {s : State} (h : s.Inv) : (acknowledgeNmi s).Inv := by
  unfold Machine.acknowledgeNmi
  split
  · exact { h with nmi := List.nodup_nil }
  · exact h

theorem State.Inv.acknowledgeIrq {s : State} (h : s.Inv) : (acknowledgeIrq s).Inv :=
  { h with irq := nodup_names_filter h.irq _ }

theorem pollAt_keepsInv (place : PollPoint) : Op.Keeps KeepsInv (pollAt place) := by
  have hR := KeepsInv.composable
  refine Op.Keeps.bind hR (Op.Keeps.get hR) fun _ => ?_
  split
  · refine Op.Keeps.bind hR (Op.Keeps.get hR) fun _ => ?_
    split
    · exact Op.Keeps.bind hR (serviceInterrupt_keepsInv _) fun _ =>
        Op.Keeps.modify fun _ h => h.acknowledgeNmi
    · split
      · exact Op.Keeps.bind hR (serviceInterrupt_keepsInv _) fun _ =>
          Op.Keeps.modify fun _ h => h.acknowledgeIrq
      · exact Op.Keeps.pure hR _
  · exact Op.Keeps.pure hR _

theorem beginIteration_keepsInv : Op.Keeps KeepsInv beginIteration := by
  have hR := KeepsInv.composable
  exact Op.Keeps.bind hR (pollAt_keepsInv _) fun _ => Op.Keeps.bind hR (Op.Keeps.get hR) fun _ =>
    Op.Keeps.bind hR (fireObservers_keepsInv _ _) fun _ => Op.Keeps.modify fun _ h => { h with }

theorem reportUnknown_keepsInv (pc0 : Word) (r : StepResult) :
    Op.Keeps KeepsInv (reportUnknown pc0 r) := by
  have hR := KeepsInv.composable
  unfold reportUnknown
  split
  · refine Op.Keeps.bind hR (Op.Keeps.get hR) fun _ =>
      Op.Keeps.bind hR (fireObservers_keepsInv _ _) fun _ =>
        Op.Keeps.bind hR (Op.Keeps.get hR) fun _ => ?_
    split
    · exact Op.Keeps.raise _
    · exact Op.Keeps.pure hR _
  · exact Op.Keeps.pure hR _

/-- R336: with a stop reason the call is over. -/
theorem State.Inv.evaluateStop {s : State} (h : s.Inv) (pc0 : Word) (opcode : Byte) :
    (evaluateStop pc0 opcode s).Inv := by
  unfold Machine.evaluateStop
  split
  · exact h
  · exact { h with running := nofun }

/-- The items after a step of at least one cycle. -/
theorem concludeStep_keepsInv (pc0 : Word) {r : StepResult} (hr : 1 ≤ r.cycles) :
    Op.Keeps KeepsInv (concludeStep pc0 r) := by
  have hR := KeepsInv.composable
  exact Op.Keeps.bind hR (Op.Keeps.modify fun _ h => h.fold pc0 hr) fun _ =>
    Op.Keeps.bind hR (pollAt_keepsInv _) fun _ => Op.Keeps.bind hR (Op.Keeps.get hR) fun _ =>
      Op.Keeps.bind hR (fireObservers_keepsInv _ _) fun _ =>
        Op.Keeps.bind hR (reportUnknown_keepsInv pc0 r) fun _ =>
          Op.Keeps.modify fun _ h => h.evaluateStop pc0 r.opcode

/-- A row that the fetch finds is in the table of the state after the opcode byte. -/
theorem fetchInstruction_known {s t : State} {row : TableRow} {o : Operand}
    (h : fetchInstruction s = .ok (.known row o, t)) :
    ∃ op u, fetchByte s = .ok (op, u) ∧ findRow u.config.table op = some row := by
  obtain ⟨op, u, hf, hrest⟩ := Op.bind_ok_iff.1 h
  rw [Op.get_bind] at hrest
  cases hrow : findRow u.config.table op with
  | none =>
    rw [hrow] at hrest
    cases hrest
  | some row' =>
    rw [hrow] at hrest
    obtain ⟨o', v, -, hlast⟩ := Op.bind_ok_iff.1 hrest
    cases hlast
    exact ⟨op, u, hf, hrow⟩

/-- One iteration of the run loop. -/
theorem iteration_keepsInv {s t : State} (h : iteration s = .next t) : KeepsInv s t := by
  intro hs
  have hR := KeepsInv.composable
  have setPc : ∀ (s : State) (v : Word), KeepsInv s (s.setPc v) := fun _ _ h => { h with }
  unfold iteration at h
  split at h
  · cases h
  · rename_i s1 hbegin
    have hs1 := beginIteration_keepsInv _ _ _ hbegin hs
    split at h
    · cases h
    · rename_i found s2 hfetch
      have hs2 := fetchInstruction_keeps hR memRead_keepsInv setPc _ _ _ hfetch hs1
      cases found with
      | unknown opcode =>
        exact concludeStep_keepsInv s1.pc (r := ⟨opcode, 1, true⟩) le_rfl _ _ _
          (complete_eq_next.1 h) hs2
      | known row o =>
        obtain ⟨op, u, hbyte, hrow⟩ := fetchInstruction_known hfetch
        have hu := fetchByte_keeps hR memRead_keepsInv setPc _ _ _ hbyte hs1
        have hcycles : 1 ≤ row.cycles := one_le_cycles hu.config hrow
        simp only [runFetched] at h
        split at h
        · rename_i v hperform
          have hv := perform_keeps (fun m => KeepsInv.keeper m o) hperform hs2
          refine concludeStep_keepsInv s1.pc (r := ⟨row.opcode, stepCycles v.config row v.events, false⟩)
            ?_ _ _ _ (complete_eq_next.1 h) hv
          simp only [stepCycles]
          omega
        · cases h
        · cases h

/-! ### The host's turn -/

/-- R330: a new call begins with zero counters and without a stop reason. -/
theorem State.Inv.beginCall {s : State} (h : s.Inv) (options : ExecutionOptions) :
    (beginCall options s).Inv :=
  { h with
    callCounts := ⟨Nat.le_refl _, Nat.le_refl _⟩
    lifetimeCounts := ⟨Nat.zero_le _, Nat.zero_le _, Nat.zero_le _⟩
    running := fun _ => rfl }

theorem bulkAddress_keepsInv (addr : Nat) (kind : AccessKind) :
    Op.Keeps KeepsInv (bulkAddress addr kind) := by
  have hR := KeepsInv.composable
  refine Op.Keeps.bind hR (Op.Keeps.get hR) fun _ => ?_
  split
  · exact Op.Keeps.pure hR _
  · exact Op.Keeps.raise _

theorem bulkRead_keepsInv : ∀ addr n, Op.Keeps KeepsInv (bulkRead addr n)
  | _, 0 => Op.Keeps.pure KeepsInv.composable _
  | addr, n + 1 =>
    have hR := KeepsInv.composable
    Op.Keeps.bind hR (bulkAddress_keepsInv addr .read) fun a =>
      Op.Keeps.bind hR (memRead_keepsInv a) fun _ =>
        Op.Keeps.bind hR (bulkRead_keepsInv (addr + 1) n) fun _ => Op.Keeps.pure hR _

theorem bulkWrite_keepsInv : ∀ addr bytes, Op.Keeps KeepsInv (bulkWrite addr bytes)
  | _, [] => Op.Keeps.pure KeepsInv.composable _
  | addr, b :: rest =>
    have hR := KeepsInv.composable
    Op.Keeps.bind hR (bulkAddress_keepsInv addr .write) fun a =>
      Op.Keeps.bind hR (memWrite_keepsInv a b) fun _ => bulkWrite_keepsInv (addr + 1) rest

theorem resetMachine_keepsInv (start : Option Word) : Op.Keeps KeepsInv (resetMachine start) := by
  have hR := KeepsInv.composable
  have htarget : Op.Keeps KeepsInv (resetTarget start) := by
    cases start with
    | none => exact memReadWord_keeps hR memRead_keepsInv _
    | some target => exact Op.Keeps.pure hR _
  exact Op.Keeps.bind hR htarget fun _ => Op.Keeps.bind hR (Op.Keeps.modify fun _ h => { h with })
    fun _ => Op.Keeps.modify fun _ h => { h with }

/-- Every operation of the host between calls. -/
theorem hostOperation_keepsInv (op : HostOp) : Op.Keeps KeepsInv (hostOperation op) := by
  have hR := KeepsInv.composable
  have keep : ∀ (s : State) (bytes : List Byte), KeepsInv s { s with hostBytes := bytes } :=
    fun _ _ h => { h with }
  cases op with
  | act action => exact applyAction_keepsInv action
  | read a => exact Op.Keeps.bind hR (memRead_keepsInv a) fun _ => Op.Keeps.modify fun s => keep s _
  | write a v => exact memWrite_keepsInv a v
  | readWord a =>
    exact Op.Keeps.bind hR (memReadWord_keeps hR memRead_keepsInv a) fun _ =>
      Op.Keeps.modify fun s => keep s _
  | writeWord a w => exact Op.Keeps.bind hR (memWrite_keepsInv _ _) fun _ => memWrite_keepsInv _ _
  | bulkRead a n =>
    exact Op.Keeps.bind hR (bulkRead_keepsInv a n) fun _ => Op.Keeps.modify fun s => keep s _
  | bulkWrite a bytes => exact bulkWrite_keepsInv a bytes
  | reset start => exact resetMachine_keepsInv start
  | run options => exact Op.Keeps.modify fun _ h => h.beginCall options
  | _ => exact Op.Keeps.modify fun _ h => { h with }

/-- Settles O58: a step is an iteration or the host's turn, and every operation of either keeps the
invariant. -/
theorem stepKeepsTheInvariant : Obligations.StepKeepsTheInvariant := by
  intro s t hs h
  unfold step at h
  split at h
  · exact iteration_keepsInv h hs
  · unfold hostTurn at h
    split at h
    · cases h
      exact hs
    · exact hostOperation_keepsInv _ _ _ _ (complete_eq_next.1 h) { hs with }

/-- Settles O59: each part of the invariant on the state after reset. -/
theorem resetHasTheInvariant : Obligations.ResetHasTheInvariant where
  memory := reset_memory_wf
  config := default_wellFormed
  cfg := by decide
  maps := by decide
  segments := by decide
  irq := List.nodup_nil
  nmi := List.nodup_nil
  callCounts := ⟨Nat.le_refl _, Nat.le_refl _⟩
  lifetimeCounts := ⟨Nat.le_refl _, Nat.le_refl _, Nat.le_refl _⟩
  running _ := rfl

end Sys2Proof.Machine
end

/-! ## Subtraction, shifts and rotates as numbers (40_step_addressing_flags.md R142, R144 to R147) -/

section
namespace Sys2Proof.Machine

/-- The complement of a byte is 255 less the byte. -/
theorem not_eq_ofNat (b : Byte) : ~~~b = BitVec.ofNat 8 (255 - b.toNat) := by
  apply BitVec.eq_of_toNat_eq
  have hb := b.isLt
  rw [BitVec.toNat_not, BitVec.toNat_ofNat]
  omega

/-- R142: the byte of a subtraction is the difference less the borrow. -/
theorem subtractWithCarry_value (a b : Byte) (cin : Bool) :
    (subtractWithCarry a b cin).value = a - b - BitVec.ofNat 8 (1 - cin.toNat) := by
  apply BitVec.eq_of_toNat_eq
  have ha := a.isLt
  have hb := b.isLt
  have hc := cin.toNat_le
  rw [subtractWithCarry, addWithCarry_value_toNat, BitVec.toNat_not, BitVec.toNat_sub,
    BitVec.toNat_sub, BitVec.toNat_ofNat]
  omega

/-- R142: Carry says that no borrow occurred. -/
theorem subtractWithCarry_carry (a b : Byte) (cin : Bool) :
    (subtractWithCarry a b cin).carry = decide (b.toNat + (1 - cin.toNat) ≤ a.toNat) := by
  have hb := b.isLt
  have hc := cin.toNat_le
  rw [subtractWithCarry, addWithCarry_carry, BitVec.toNat_not, decide_eq_decide]
  omega

/-- Settles O7: subtraction as addition of the complement, its byte and its Carry. -/
theorem subtractWithCarryBorrows : Obligations.SubtractWithCarryBorrows := fun a b cin =>
  ⟨congrArg (fun n => addWithCarry a n cin) (not_eq_ofNat b), subtractWithCarry_value a b cin,
    subtractWithCarry_carry a b cin⟩

/-! ### Shifts -/

/-- A truth value is known by its number. -/
theorem bool_eq_of_toNat_eq : ∀ {a b : Bool}, a.toNat = b.toNat → a = b := by decide

/-- Bit 7 of a byte is its digit for 128. -/
theorem byte_bit7 (v : Byte) : (v.getLsbD 7).toNat = v.toNat / 128 := by
  have hv := v.isLt
  have hbit : (v.getLsbD 7).toNat = v.toNat / 2 ^ 7 % 2 := Nat.toNat_testBit v.toNat 7
  omega

/-- Bit 0 of a byte is its parity. -/
theorem byte_bit0 (v : Byte) : (v.getLsbD 0).toNat = v.toNat % 2 := by
  have hbit : (v.getLsbD 0).toNat = v.toNat / 2 ^ 0 % 2 := Nat.toNat_testBit v.toNat 0
  omega

theorem shiftLeft_toNat (v : Byte) (c : Bool) : (shiftLeft v c).value.toNat = v.toNat * 2 % 256 :=
  BitVec.toNat_ofNat _ 8

theorem shiftRight_toNat (v : Byte) (c : Bool) : (shiftRight v c).value.toNat = v.toNat / 2 := by
  have hv := v.isLt
  rw [shiftRight, BitVec.toNat_ofNat]
  omega

theorem rotateLeft_toNat (v : Byte) (c : Bool) :
    (rotateLeft v c).value.toNat = v.toNat * 2 % 256 + c.toNat := by
  have hc := c.toNat_le
  rw [rotateLeft, BitVec.toNat_ofNat]
  omega

theorem rotateRight_toNat (v : Byte) (c : Bool) :
    (rotateRight v c).value.toNat = v.toNat / 2 + c.toNat * 128 := by
  have hv := v.isLt
  have hc := c.toNat_le
  rw [rotateRight, BitVec.toNat_ofNat]
  omega

/-- LSR clears bit 7. -/
theorem shiftRight_bit7 (v : Byte) (c : Bool) : (shiftRight v c).value.getLsbD 7 = false := by
  have hv := v.isLt
  apply bool_eq_of_toNat_eq
  rw [byte_bit7, shiftRight_toNat, Bool.toNat_false]
  omega

/-- ROR puts the carry into bit 7. -/
theorem rotateRight_bit7 (v : Byte) (c : Bool) : (rotateRight v c).value.getLsbD 7 = c := by
  have hv := v.isLt
  apply bool_eq_of_toNat_eq
  rw [byte_bit7, rotateRight_toNat]
  omega

/-- Reading a flag after a shift. -/
@[simp] theorem getFlag_shiftStatus (g : Flag) (r : ShiftResult) (p : Byte) :
    getFlag g (r.status p) = if g = .n then r.value.msb else if g = .z then r.value == 0x00#8
      else if g = .c then r.carry else getFlag g p := by
  simp [ShiftResult.status]

/-- ROR undoes ROL, the byte and the carry. -/
theorem rotateRight_rotateLeft (v : Byte) (c : Bool) :
    rotateRight (rotateLeft v c).value (rotateLeft v c).carry = ⟨v, c⟩ := by
  have hv := v.isLt
  have hc := c.toNat_le
  have hvalue : (rotateRight (rotateLeft v c).value (rotateLeft v c).carry).value = v := by
    apply BitVec.eq_of_toNat_eq
    rw [rotateRight_toNat, rotateLeft_toNat, rotateLeft, byte_bit7]
    omega
  have hcarry : (rotateRight (rotateLeft v c).value (rotateLeft v c).carry).carry = c := by
    apply bool_eq_of_toNat_eq
    rw [rotateRight, byte_bit0, rotateLeft_toNat]
    omega
  exact congrArg₂ ShiftResult.mk hvalue hcarry

/-- R242: ROL turns the nine bits of byte and carry by one, so nine of them turn them back; checked on
the 512 pairs. -/
theorem rotateLeft_nine : ∀ (v : Byte) (c : Bool),
    Nat.repeat (fun r : ShiftResult => rotateLeft r.value r.carry) 9 ⟨v, c⟩ = ⟨v, c⟩ := by
  decide +kernel

/-- Settles O8: each helper's byte as a number with its outer bits, the flags, the two round trips. -/
theorem shiftAndRotateHelpers : Obligations.ShiftAndRotateHelpers :=
  ⟨fun v c => ⟨shiftLeft_toNat v c, rfl, shiftRight_toNat v c, rfl, shiftRight_bit7 v c,
      rotateLeft_toNat v c, rfl, rotateRight_toNat v c, rfl, rotateRight_bit7 v c⟩,
    fun r p => ⟨by simp, by simp, by simp [byte_msb_eq_getLsbD], fun f hc hz hn => by simp [hc, hz, hn]⟩,
    fun v c => ⟨rotateRight_rotateLeft v c, rotateLeft_nine v c⟩⟩

end Sys2Proof.Machine
end

/-! ## Accesses through the mapping (20_memory.md R52 to R55, R71) -/

section
namespace Sys2Proof.Machine

/-! ### The view of an address -/

theorem State.readSlot_inside {s : State} {a : Word} (h : a.toNat < s.config.memSize) :
    s.readSlot a = s.mem.readSlot a.toNat := if_pos h

theorem State.writeSlot_inside {s : State} {a : Word} (h : a.toNat < s.config.memSize) :
    s.writeSlot a = s.mem.writeSlot a.toNat := if_pos h

/-- D30: no hook at or above MEM_SIZE. -/
theorem State.readSlot_beyond {s : State} {a : Word} (h : s.config.memSize ≤ a.toNat) :
    s.readSlot a = none := if_neg (Nat.not_lt.2 h)

theorem State.writeSlot_beyond {s : State} {a : Word} (h : s.config.memSize ≤ a.toNat) :
    s.writeSlot a = none := if_neg (Nat.not_lt.2 h)

/-- An address that the mappings give no read-hook has none. -/
theorem State.readSlot_unmapped {s : State} {a : Word} (h : s.mem.readSlot a.toNat = none) :
    s.readSlot a = none := by simp [State.readSlot, h]

theorem State.writeSlot_unmapped {s : State} {a : Word} (h : s.mem.writeSlot a.toNat = none) :
    s.writeSlot a = none := by simp [State.writeSlot, h]

/-! ### What an access does, by the slot of its address -/

section
variable {s : State} {a : Word} {readDevice : Nat → Op Byte} {writeDevice : Nat → Op Unit}

theorem readWith_of_none (h : s.readSlot a = none) :
    readWith readDevice a s = .error (.invalidMemoryAccess a.toNat .read s.pc s) := by
  simp [readWith, h]

theorem readWith_of_device {port : Nat} (h : s.readSlot a = some (.device port)) :
    readWith readDevice a s = readDevice port s := by
  simp [readWith, h]

theorem writeWith_of_device {port : Nat} (v : Byte) (h : s.writeSlot a = some (.device port)) :
    writeWith writeDevice a v s = writeDevice port s := by
  simp [writeWith, h]

/-- The hook function handed to a write matters where the address has a device hook only. -/
theorem writeWith_of_not_device (v : Byte) (h : ∀ port, s.writeSlot a ≠ some (.device port))
    (other : Nat → Op Unit) : writeWith writeDevice a v s = writeWith other a v s := by
  simp only [writeWith, Op.get_bind]
  cases hk : s.writeSlot a with
  | none => rfl
  | some slot =>
    cases slot with
    | byte k => rfl
    | device port => exact absurd hk (h port)

/-- R53: without any hook a write faults. -/
theorem memWrite_of_none (v : Byte) (hw : s.writeSlot a = none) (hr : s.readSlot a = none) :
    memWrite a v s = .error (.invalidMemoryAccess a.toNat .write s.pc s) := by
  simp [memWrite, writeWith, hw, hr]

/-- R53: where there is a read-hook only, ROM_WRITE_POLICY decides. -/
theorem memWrite_of_rom (v : Byte) (hw : s.writeSlot a = none) (hr : s.readSlot a ≠ none) :
    memWrite a v s = match s.config.romWritePolicy with
      | .ignore => .ok ((), s)
      | .fault => .error (.invalidMemoryAccess a.toNat .write s.pc s) := by
  have hsome : (s.readSlot a).isSome = true := Option.isSome_iff_ne_none.2 hr
  simp only [memWrite, writeWith, Op.get_bind, hw, hsome, Bool.true_and]
  cases s.config.romWritePolicy <;> rfl

/-- R53: a device's write-hook is invoked once with the byte. -/
theorem memWrite_of_device {port : Nat} (v : Byte) (h : s.writeSlot a = some (.device port)) :
    memWrite a v s = (invokeHook (.write port a v) >>= fun _ => pure ()) s := writeWith_of_device v h

end

/-- Settles O10: the four kinds of address a read can meet. -/
theorem readInvokesTheReadHook : Obligations.ReadInvokesTheReadHook := fun _ _ =>
  ⟨fun h => readWith_of_none (State.readSlot_beyond h),
    fun h => readWith_of_none (State.readSlot_unmapped h),
    fun _ hin h => memRead_of_peek (State.peek_of_readSlot ((State.readSlot_inside hin).trans h)),
    fun _ hin h => readWith_of_device ((State.readSlot_inside hin).trans h)⟩

/-- Settles O11: the kinds of address a write can meet, a device's hook by its answer. -/
theorem writeInvokesTheWriteHook : Obligations.WriteInvokesTheWriteHook := by
  refine fun s a v => ⟨fun h => ?beyond, fun hr hw => ?unmapped, fun k hin h => ?byte,
    fun port hin h => ?device, fun hin hw hr => ?rom⟩
  case beyond => exact memWrite_of_none v (State.writeSlot_beyond h) (State.readSlot_beyond h)
  case unmapped => exact memWrite_of_none v (State.writeSlot_unmapped hw) (State.readSlot_unmapped hr)
  case byte => exact memWrite_of_slot ((State.writeSlot_inside hin).trans h) v
  case device =>
    rw [memWrite_of_device v ((State.writeSlot_inside hin).trans h)]
    exact ⟨fun b t hk => Op.bind_of_ok hk, fun f hk => Op.bind_of_error hk⟩
  case rom =>
    rw [memWrite_of_rom v (State.writeSlot_unmapped hw) (by rwa [State.readSlot_inside hin])]
    exact ⟨fun hp => by rw [hp], fun hp => by rw [hp]⟩

/-! ### Words -/

theorem lowByte_eq_ofNat (w : Word) : lowByte w = BitVec.ofNat 8 (w.toNat % 256) := by
  apply BitVec.eq_of_toNat_eq
  rw [lowByte_toNat, BitVec.toNat_ofNat]
  omega

theorem highByte_eq_ofNat (w : Word) : highByte w = BitVec.ofNat 8 (w.toNat / 256) := by
  apply BitVec.eq_of_toNat_eq
  have := w.isLt
  rw [highByte_toNat, BitVec.toNat_ofNat]
  omega

section
variable {s s1 s2 : State} {a : Word}

/-- A word made of two bytes read in turn, the low one first (D15). -/
def readPair (low high : Word) : Op Word := do
  let lo ← memRead low
  let hi ← memRead high
  pure (wordOf hi lo)

theorem memReadWord_eq_readPair (a : Word) : memReadWord a = readPair a (a + 1) := rfl

/-- The high byte is read in the state the first read left. -/
theorem readPair_of_ok {low high : Word} {lo hi : Byte} (h0 : memRead low s = .ok (lo, s1))
    (h1 : memRead high s1 = .ok (hi, s2)) : readPair low high s = .ok (wordOf hi lo, s2) := by
  rw [readPair, Op.bind_of_ok h0, Op.bind_of_ok h1]
  rfl

theorem readPair_error_low {low high : Word} {f : Fault} (h : memRead low s = .error f) :
    readPair low high s = .error f := Op.bind_of_error h

theorem readPair_error_high {low high : Word} {lo : Byte} {f : Fault}
    (h0 : memRead low s = .ok (lo, s1)) (h1 : memRead high s1 = .error f) :
    readPair low high s = .error f := by
  rw [readPair, Op.bind_of_ok h0, Op.bind_of_error h1]

/-- Plain RAM stays plain RAM when backing bytes change. -/
theorem State.RamAt.store {k : Nat} (h : s.RamAt a k) (j : Nat) (v : Byte) :
    (s.setMem (s.mem.store j v)).RamAt a k := by
  simpa [State.RamAt] using h

/-- A RAM byte just stored is the byte its address reads. -/
theorem State.RamAt.peek_store_same {k : Nat} (h : s.RamAt a k) (hwf : s.mem.wf = true) (v : Byte) :
    (s.setMem (s.mem.store k v)).peek a = some v := by
  rw [State.peek_of_readSlot (h.store k v).1]
  simp [Memory.byteAt_store hwf]

/-- A store to another backing byte leaves what a RAM address reads. -/
theorem State.RamAt.peek_store_other {j k : Nat} (h : s.RamAt a k) (hwf : s.mem.wf = true)
    (hjk : k ≠ j) (v : Byte) : (s.setMem (s.mem.store j v)).peek a = s.peek a :=
  State.peek_store hwf j v a (by simpa [h.1] using hjk)

/-- R55: a word written to two RAM bytes. -/
theorem memWriteWord_of_ram {k k' : Nat} (h : s.RamAt a k) (h' : s.RamAt (a + 1) k') (w : Word) :
    memWriteWord a w s =
      .ok ((), s.setMem ((s.mem.store k (lowByte w)).store k' (highByte w))) := by
  rw [memWriteWord, Op.bind_of_ok (memWrite_of_slot h.2 _), memWrite_of_slot (h'.store k _).2]
  rfl

/-- Two distinct RAM bytes stored in turn read as stored. -/
theorem State.peek_store_pair {b : Word} {k k' : Nat} (hwf : s.mem.wf = true) (h : s.RamAt a k)
    (h' : s.RamAt b k') (hk : k ≠ k') (v v' : Byte) :
    (s.setMem ((s.mem.store k v).store k' v')).peek a = some v ∧
      (s.setMem ((s.mem.store k v).store k' v')).peek b = some v' := by
  have hwf' : (s.setMem (s.mem.store k v)).mem.wf = true := Memory.wf_store hwf k v
  exact ⟨((h.store k v).peek_store_other hwf' hk v').trans (h.peek_store_same hwf v),
    (h'.store k v).peek_store_same hwf' v'⟩

end

/-- Settles O12: the two byte accesses of a word in order, and its read-back on RAM. -/
theorem wordsAreLittleEndian : Obligations.WordsAreLittleEndian := by
  simp only [Obligations.WordsAreLittleEndian, ← lowByte_eq_ofNat, ← highByte_eq_ofNat]
  refine ⟨wordOf_toNat, fun _ _ _ _ _ _ => readPair_of_ok, fun _ _ _ => readPair_error_low,
    fun _ _ _ _ _ => readPair_error_high, fun _ _ _ _ _ h0 h1 => ?_,
    fun _ _ _ _ h => Op.bind_of_error h, fun _ _ _ _ _ h0 h1 => ?_, fun s a w k k' hwf h h' hk => ?_⟩
  · rw [memWriteWord, Op.bind_of_ok h0, h1]
  · rw [memWriteWord, Op.bind_of_ok h0, h1]
  · obtain ⟨hlo, hhi⟩ := State.peek_store_pair hwf h h' hk (lowByte w) (highByte w)
    exact ⟨_, memWriteWord_of_ram h h' w, by simpa using memReadWord_of_peek hlo hhi⟩

/-- Settles O13: the laws of the backing bytes. -/
theorem backingBytesReadAfterWrite : Obligations.BackingBytesReadAfterWrite :=
  ⟨fun _ k j v h => ⟨Memory.byteAt_store h k j v, Memory.wf_store h k v⟩, fun _ _ => cells_ext⟩

/-! ### Hooks (60_exceptions.md R340, R343) -/

/-- R340: the reply found for a call is the case listed for it, or what the reply says otherwise. -/
theorem HookReply.answer_eq {reply : HookReply} {call : HookCall} {answer : HookAnswer}
    (h : reply.cases.lookup call = some answer ∨
      reply.cases.lookup call = none ∧ reply.otherwise = answer) : reply.answer call = answer := by
  rcases h with h | ⟨h, ho⟩
  · simp [HookReply.answer, h]
  · simp [HookReply.answer, h, ho]

/-- An invocation with a reply left: the call is recorded, the answer's actions are carried out, its
byte is returned. -/
theorem invokeHook_of_reply {s : State} {call : HookCall} {reply : HookReply}
    {rest : List HookReply} (h : s.replies = reply :: rest) :
    invokeHook call s = (applyActions (reply.answer call).actions >>= fun _ =>
      pure (reply.answer call).byte) { s with hookCalls := call :: s.hookCalls, replies := rest } := by
  have htake : takeReply call { s with hookCalls := call :: s.hookCalls } =
      .ok (reply.answer call, { s with hookCalls := call :: s.hookCalls, replies := rest }) := by
    simp [takeReply, h]
  rw [invokeHook, recordCall, Op.modify_bind, Op.bind_of_ok htake]

/-- An invocation when the script is used up answers the next free byte. -/
theorem invokeHook_of_no_reply {s : State} (h : s.replies = []) (call : HookCall) :
    invokeHook call s = .ok (Config.freeByte s.freeCount,
      { s with hookCalls := call :: s.hookCalls, freeCount := s.freeCount + 1 }) := by
  have htake : takeReply call { s with hookCalls := call :: s.hookCalls } =
      .ok (⟨Config.freeByte s.freeCount, []⟩,
        { s with hookCalls := call :: s.hookCalls, freeCount := s.freeCount + 1 }) := by
    simp only [takeReply, h]
    rfl
  rw [invokeHook, recordCall, Op.modify_bind, Op.bind_of_ok htake]
  rfl

/-- Settles O17: an invocation with and without a reply, the host's own accesses by the slot of the
address, and the frame of accesses and observers. -/
theorem hooksLeaveTheProcessor : Obligations.HooksLeaveTheProcessor := by
  refine ⟨fun s call reply rest answer hr ha => ?reply, fun s call h => ⟨_, invokeHook_of_no_reply h call⟩,
    fun s a => ⟨fun k hk => hostRead_of_peek (State.peek_of_readSlot hk), fun hk => ?unmapped,
      fun port hk => ⟨Config.freeByte s.freeCount, ?device⟩,
      fun v => ⟨fun port hk => writeWith_of_device v hk, fun hk => writeWith_of_not_device v hk _⟩⟩,
    fun s t a v h => memRead_sameButHooks a s v t h, fun s t a v h => memWrite_sameButHooks a v s () t h,
    fun s t call n h => fireObservers_keeps SameButHooks.composable invokeHook_sameButHooks call n s () t h⟩
  case reply =>
    rw [invokeHook_of_reply hr, HookReply.answer_eq ha]
    exact ⟨fun t h => Op.bind_of_ok h, fun f h => Op.bind_of_error h⟩
  case unmapped => exact Op.bind_of_error (readWith_of_none hk)
  case device =>
    refine Op.bind_of_ok (a := Config.freeByte s.freeCount)
      (t := { s with hookCalls := .read port a :: s.hookCalls, freeCount := s.freeCount + 1 }) ?_
    rw [readWith_of_device hk]
    rfl

end Sys2Proof.Machine
end

/-! ## Mappings, configurations and banks (20_memory.md R56 to R60, R62) -/

section
namespace Sys2Proof.Machine

/-! ### Ranges on the current configuration -/

/-- MapRAM of a part that the array has (R56). -/
theorem mapRam_some {arr : BackingArray} {offset n : Nat} (h : offset + n ≤ arr.size)
    (config : Option Nat) (base : Nat) :
    mapRam config base arr offset (some n) = installRange config base n
      (some (.bytes (arr.origin + offset))) (some (.bytes (arr.origin + offset))) := by
  simp [mapRam, h]

/-- By default MapRAM maps the rest of the array (R56). -/
theorem mapRam_none {arr : BackingArray} {offset n : Nat} (h : offset + n = arr.size)
    (config : Option Nat) (base : Nat) :
    mapRam config base arr offset none = mapRam config base arr offset (some n) := by
  simp only [mapRam, Option.getD_none, Option.getD_some, show arr.size - offset = n by omega]

/-- An address of a mapping on backing bytes reads from the byte at its offset. -/
theorem Memory.readSlot_install_bytes {m : Memory} {r : Mapping} {a o : Nat} (hc : r.config = m.cfg)
    (hr : r.rd = some (.bytes o)) (h1 : r.base ≤ a) (h2 : a < r.base + r.length) :
    (m.install r).readSlot a = some (.byte (o + (a - r.base))) := by
  rw [Memory.readSlot_install m r a hc, if_pos ⟨h1, h2, by simp [hr]⟩, hr]
  rfl

theorem Memory.writeSlot_install_bytes {m : Memory} {r : Mapping} {a o : Nat} (hc : r.config = m.cfg)
    (hw : r.wr = some (.bytes o)) (h1 : r.base ≤ a) (h2 : a < r.base + r.length) :
    (m.install r).writeSlot a = some (.byte (o + (a - r.base))) := by
  rw [Memory.writeSlot_install m r a hc, if_pos ⟨h1, h2, by simp [hw]⟩, hw]
  rfl

/-- An address outside a new mapping keeps its hooks. -/
theorem Memory.slots_install_outside {m : Memory} {r : Mapping} {a : Nat} (hc : r.config = m.cfg)
    (h : a < r.base ∨ r.base + r.length ≤ a) :
    (m.install r).readSlot a = m.readSlot a ∧ (m.install r).writeSlot a = m.writeSlot a := by
  rw [Memory.readSlot_install m r a hc, Memory.writeSlot_install m r a hc, if_neg (by omega),
    if_neg (by omega)]
  exact ⟨rfl, rfl⟩

/-- A mapping that names no read side leaves every read-hook. -/
theorem Memory.readSlot_install_none {m : Memory} {r : Mapping} (hc : r.config = m.cfg)
    (hr : r.rd = none) (a : Nat) : (m.install r).readSlot a = m.readSlot a := by
  rw [Memory.readSlot_install m r a hc, if_neg (by simp [hr])]

theorem Memory.writeSlot_install_none {m : Memory} {r : Mapping} (hc : r.config = m.cfg)
    (hw : r.wr = none) (a : Nat) : (m.install r).writeSlot a = m.writeSlot a := by
  rw [Memory.writeSlot_install m r a hc, if_neg (by simp [hw])]

/-- The read-hook of a register's one address, by its mode (R58). -/
theorem Memory.readSlot_install_register (m : Memory) (base cell : Nat) (mode : RegisterMode) :
    (m.install ⟨m.cfg, base, 1, mode.readSide (.bytes cell), mode.writeSide (.bytes cell)⟩).readSlot
      base = if mode = .write then m.readSlot base else some (.byte cell) := by
  cases mode with
  | write => exact Memory.readSlot_install_none rfl rfl base
  | read | readWrite =>
    rw [Memory.readSlot_install_bytes rfl rfl (le_refl base) (Nat.lt_succ_self base)]
    simp

theorem Memory.writeSlot_install_register (m : Memory) (base cell : Nat) (mode : RegisterMode) :
    (m.install ⟨m.cfg, base, 1, mode.readSide (.bytes cell), mode.writeSide (.bytes cell)⟩).writeSlot
      base = if mode = .read then m.writeSlot base else some (.byte cell) := by
  cases mode with
  | read => exact Memory.writeSlot_install_none rfl rfl base
  | write | readWrite =>
    rw [Memory.writeSlot_install_bytes rfl rfl (le_refl base) (Nat.lt_succ_self base)]
    simp

/-! ### An explicit target configuration (D23) -/

/-- The three mappings of R56 to R58 install one range whose hooks do not depend on the target. -/
theorem exists_installRange {map : Option Nat → Op Unit}
    (h : (∃ base arr offset length, offset + length ≤ arr.size ∧
        map = fun config => mapRam config base arr offset (some length)) ∨
      (∃ base arr, map = fun config => mapRom config base arr) ∨
      ∃ base cell mode, map = fun config => mapRegister config base cell mode) :
    ∃ base length rd wr, map = fun config => installRange config base length rd wr := by
  rcases h with ⟨base, arr, offset, length, hle, rfl⟩ | ⟨base, arr, rfl⟩ | ⟨base, cell, mode, rfl⟩
  · exact ⟨_, _, _, _, funext fun config => mapRam_some hle config base⟩
  · exact ⟨_, _, _, _, rfl⟩
  · exact ⟨_, _, _, _, rfl⟩

/-- Installing on a configuration in range is what it is with that configuration current, which then
gets its index back. -/
theorem installRange_explicit {s : State} {c : Nat} (hc : c < s.config.numConfigs) (base length : Nat)
    (rd wr : Option Backing) :
    (∀ t, installRange none base length rd wr (s.setMem { s.mem with cfg := c }) = .ok ((), t) →
      installRange (some c) base length rd wr s =
        .ok ((), t.setMem { t.mem with cfg := s.mem.cfg }) ∧
      (c ≠ s.mem.cfg → ∀ a, ({ t.mem with cfg := s.mem.cfg } : Memory).readSlot a = s.mem.readSlot a ∧
        ({ t.mem with cfg := s.mem.cfg } : Memory).writeSlot a = s.mem.writeSlot a)) ∧
    (∀ reason left,
      installRange none base length rd wr (s.setMem { s.mem with cfg := c }) =
        .error (.configuration reason left) →
      installRange (some c) base length rd wr s = .error (.configuration reason s)) := by
  rw [installRange_of_target (targetConfiguration_some hc), installRange_of_target rfl,
    State.setMem_config]
  by_cases hle : base + length ≤ s.config.memSize
  · rw [if_pos hle, if_pos hle]
    refine ⟨fun t h => ?_, fun reason left h => by cases h⟩
    cases h
    exact ⟨rfl, fun hne a => s.mem.slots_install_other ⟨c, base, length, rd, wr⟩ a hne⟩
  · rw [if_neg hle, if_neg hle]
    refine ⟨fun t h => (by cases h), fun reason left h => ?_⟩
    cases h
    rfl

/-- Settles O14: MapRAM, MapROM and MapRegister as installations on the current configuration, in
range and beyond it, and all three on an explicit target. -/
theorem mappingsReplaceTheHooksTheyName : Obligations.MappingsReplaceTheHooksTheyName := by
  refine ⟨fun s base arr => ⟨fun offset n hn => ⟨fun hle => ?ram, fun hlt => ?ramBeyond⟩,
    fun hle => ?rom, fun hlt => installRange_beyond hlt,
    fun cell mode => ⟨fun hlt => ?register, fun hle => installRange_beyond (by omega)⟩⟩,
    fun s u c map hmap => ?target⟩
  case ram =>
    rw [mapRam_some hn]
    refine ⟨_, installRange_current hle, rfl, fun hsize => ?_, fun a => ⟨fun h1 h2 => ?_, fun h => ?_⟩⟩
    · rw [mapRam_none hsize, mapRam_some hn, installRange_current hle]
    · exact ⟨Memory.readSlot_install_bytes rfl rfl h1 h2, Memory.writeSlot_install_bytes rfl rfl h1 h2⟩
    · exact Memory.slots_install_outside rfl h
  case ramBeyond =>
    rw [mapRam_some hn]
    exact installRange_beyond hlt
  case rom =>
    exact ⟨_, installRange_current hle, rfl, fun a => ⟨Memory.writeSlot_install_none rfl rfl a,
      fun h1 h2 => Memory.readSlot_install_bytes rfl rfl h1 h2,
      fun h => (Memory.slots_install_outside rfl h).1⟩⟩
  case register =>
    exact ⟨_, installRange_current (by omega), rfl,
      fun a ha => Memory.slots_install_outside rfl (by simp only; omega),
      s.mem.readSlot_install_register base cell mode, s.mem.writeSlot_install_register base cell mode⟩
  case target =>
    obtain ⟨base, length, rd, wr, rfl⟩ := exists_installRange hmap
    refine ⟨fun hc => installRange_error hc, fun hc hu => ?_⟩
    subst hu
    exact installRange_explicit hc base length rd wr

/-! ### RAM under ROM -/

/-- MapRAM of one whole cell is the installation of one address. -/
theorem mapRam_cell (base cell : Nat) : mapRam none base ⟨cell, 1⟩ 0 none =
    installRange none base 1 (some (.bytes cell)) (some (.bytes cell)) := rfl

/-- An installation of one address that answers did so below MEM_SIZE, on the current configuration. -/
theorem installRange_cell_eq {s t : State} {a : Word} {rd wr : Option Backing}
    (h : installRange none a.toNat 1 rd wr s = .ok ((), t)) : a.toNat < s.config.memSize ∧
      t = s.setMem (s.mem.install ⟨s.mem.cfg, a.toNat, 1, rd, wr⟩) := by
  obtain ⟨c, ⟨-, rfl⟩ | ⟨hn, -⟩, hle, rfl⟩ := installRange_eq h
  · exact ⟨hle, rfl⟩
  · cases hn

/-- The address of a cell mapped on top reads from the cell. -/
theorem State.readSlot_install_cell {s : State} {a : Word} (hin : a.toNat < s.config.memSize)
    (m : Memory) (cell : Nat) (wr : Option Backing) :
    (s.setMem (m.install ⟨m.cfg, a.toNat, 1, some (.bytes cell), wr⟩)).readSlot a =
      some (.byte cell) := by
  rw [State.readSlot_inside (by exact hin), State.setMem_mem,
    Memory.readSlot_install_bytes rfl rfl (le_refl _) (Nat.lt_succ_self _)]
  simp

/-- And writes to it, also under a mapping with no write side. -/
theorem State.writeSlot_install_cell {s : State} {a : Word} (hin : a.toNat < s.config.memSize)
    (m : Memory) (cell : Nat) (rd rd' : Option Backing) :
    (s.setMem ((m.install ⟨m.cfg, a.toNat, 1, rd, some (.bytes cell)⟩).install
      ⟨m.cfg, a.toNat, 1, rd', none⟩)).writeSlot a = some (.byte cell) := by
  rw [State.writeSlot_inside (by exact hin), State.setMem_mem, Memory.writeSlot_install_none rfl rfl,
    Memory.writeSlot_install_bytes rfl rfl (le_refl _) (Nat.lt_succ_self _)]
  simp

/-- Settles O15: the write goes to the RAM byte below, the read comes from the ROM byte above it, and
the RAM mapped again is on top. -/
theorem ramUnderRom : Obligations.RamUnderRom := by
  intro s s1 s2 a ram rom v hwf hne h1 h2
  rw [mapRam_cell] at h1
  obtain ⟨hin, hs1⟩ := installRange_cell_eq h1
  obtain ⟨hin1, hs2⟩ := installRange_cell_eq h2
  have hcells : s2.mem.cells = s.mem.cells := by rw [hs2, hs1]; rfl
  have hwf2 : s2.mem.wf = true := by rw [Memory.wf, hcells]; exact hwf
  have hin2 : a.toNat < s2.config.memSize := by rw [hs2]; exact hin1
  have hwrite : s2.writeSlot a = some (.byte ram) := by
    rw [hs2, hs1]
    exact State.writeSlot_install_cell (s := s) hin s.mem ram _ _
  have hread : s2.readSlot a = some (.byte rom) := by
    rw [hs2]
    exact State.readSlot_install_cell (s := s1) hin1 s1.mem rom none
  let s3 := s2.setMem (s2.mem.store ram v)
  let s4 := s3.setMem (s3.mem.install ⟨s3.mem.cfg, a.toNat, 1, some (.bytes ram), some (.bytes ram)⟩)
  have hram : s3.mem.byteAt ram = v := by simp [s3, Memory.byteAt_store hwf2]
  have hrom : s3.mem.byteAt rom = s.mem.byteAt rom := by
    rw [State.setMem_mem, Memory.byteAt_store hwf2, if_neg hne.symm, Memory.byteAt, hcells,
      Memory.byteAt]
  have hread3 : s3.readSlot a = some (.byte rom) := by simpa [s3] using hread
  have hread4 : s4.readSlot a = some (.byte ram) := State.readSlot_install_cell hin2 s3.mem ram _
  refine ⟨s3, s4, memWrite_of_slot hwrite v, hram, ?_, installRange_current hin2, ?_⟩
  · rw [← hrom]
    exact memRead_of_peek (State.peek_of_readSlot hread3)
  · rw [← hram]
    exact memRead_of_peek (State.peek_of_readSlot hread4)

/-! ### Configurations, segments and banks -/

/-- R60: an index in range becomes the current one. -/
theorem setConfiguration_ok {s : State} {index : Nat} (h : index < s.config.numConfigs) :
    setConfiguration index s = .ok ((), { s with mem := { s.mem with cfg := index } }) := by
  rw [setConfiguration, Op.bind_of_ok (checkConfiguration_ok h)]
  rfl

theorem setConfiguration_error {s : State} {index : Nat} (h : s.config.numConfigs ≤ index) :
    setConfiguration index s = .error (.configuration .invalidMemoryConfiguration s) :=
  Op.bind_of_error (checkConfiguration_error h)

/-- A write-hook whose answer switches the configuration. -/
theorem memWrite_switching {s : State} {index port : Nat} {a : Word} {v b : Byte} {reply : HookReply}
    {rest : List HookReply} (hw : s.writeSlot a = some (.device port))
    (hi : index < s.config.numConfigs) (hr : s.replies = reply :: rest)
    (ha : reply.answer (.write port a v) = ⟨b, [.setConfiguration index]⟩) :
    memWrite a v s = .ok ((), { s with
      mem := { s.mem with cfg := index }
      replies := rest
      hookCalls := .write port a v :: s.hookCalls }) := by
  have hact : applyActions [.setConfiguration index]
      { s with hookCalls := .write port a v :: s.hookCalls, replies := rest } = .ok ((), { s with
        mem := { s.mem with cfg := index }
        replies := rest
        hookCalls := .write port a v :: s.hookCalls }) := by
    simp only [applyActions, applyAction]
    rw [Op.bind_of_ok (setConfiguration_ok (by exact hi))]
    rfl
  have hhook := invokeHook_of_reply (call := .write port a v) hr
  rw [ha, Op.bind_of_ok hact] at hhook
  rw [memWrite_of_device v hw, Op.bind_of_ok hhook]
  rfl

/-- More segments leave what a known backing stands for. -/
theorem Backing.slot_append {m : Memory} {b : Backing} (h : b.known m.segments = true) (g : Segment)
    (off : Nat) : Backing.slot { m with segments := m.segments ++ [g] } off b = Backing.slot m off b := by
  cases b with
  | bytes origin => rfl
  | device port => rfl
  | segment id =>
    have hid : id < m.segments.length := by simpa [Backing.known] using h
    simp only [Backing.slot, Memory.segmentIndex, List.getElem?_append_left hid]

/-- More segments leave the hooks of every address whose mappings name known segments. -/
theorem Memory.slots_append {m : Memory} (h : ∀ r ∈ m.maps,
      r.rd.all (Backing.known m.segments) = true ∧ r.wr.all (Backing.known m.segments) = true)
    (g : Segment) (a : Nat) :
    ({ m with segments := m.segments ++ [g] } : Memory).readSlot a = m.readSlot a ∧
      ({ m with segments := m.segments ++ [g] } : Memory).writeSlot a = m.writeSlot a := by
  refine ⟨?_, ?_⟩
  · simp only [Memory.readSlot]
    split
    · rfl
    · rename_i r hr
      obtain ⟨hrd, -⟩ := h r (List.mem_of_find?_eq_some hr)
      cases hb : r.rd with
      | none => rfl
      | some b => exact Backing.slot_append (by simpa [hb] using hrd) g _
  · simp only [Memory.writeSlot]
    split
    · rfl
    · rename_i r hr
      obtain ⟨-, hwr⟩ := h r (List.mem_of_find?_eq_some hr)
      cases hb : r.wr with
      | none => rfl
      | some b => exact Backing.slot_append (by simpa [hb] using hwr) g _

/-- An address of a new segment stands for its offset in the active bank, both ways. -/
theorem Memory.slots_addSegment_inside {m : Memory} {g : Segment} {a place : Nat}
    (hb : g.banks[g.active]? = some place) (h1 : g.origin ≤ a) (h2 : a < g.origin + g.size) :
    (m.addSegment m.cfg g).readSlot a = some (.byte (place + (a - g.origin))) ∧
      (m.addSegment m.cfg g).writeSlot a = some (.byte (place + (a - g.origin))) := by
  let r : Mapping := ⟨m.cfg, g.origin, g.size, some (.segment m.segments.length),
    some (.segment m.segments.length)⟩
  let n : Memory := { m with segments := m.segments ++ [g] }
  have hslot : Backing.slot n (a - g.origin) (.segment m.segments.length) =
      some (.byte (place + (a - g.origin))) := by
    simp [Backing.slot, Memory.segmentIndex, n, hb]
  refine ⟨?_, ?_⟩
  · exact (Memory.readSlot_install n r a rfl).trans ((if_pos ⟨h1, h2, rfl⟩).trans hslot)
  · exact (Memory.writeSlot_install n r a rfl).trans ((if_pos ⟨h1, h2, rfl⟩).trans hslot)

/-- An address outside a new segment keeps its hooks. -/
theorem Memory.slots_addSegment_outside {m : Memory} (h : ∀ r ∈ m.maps,
      r.rd.all (Backing.known m.segments) = true ∧ r.wr.all (Backing.known m.segments) = true)
    {g : Segment} {a : Nat} (ha : a < g.origin ∨ g.origin + g.size ≤ a) :
    (m.addSegment m.cfg g).readSlot a = m.readSlot a ∧
      (m.addSegment m.cfg g).writeSlot a = m.writeSlot a := by
  obtain ⟨hr, hw⟩ := Memory.slots_install_outside (m := { m with segments := m.segments ++ [g] })
    (r := ⟨m.cfg, g.origin, g.size, some (.segment m.segments.length),
      some (.segment m.segments.length)⟩) rfl ha
  obtain ⟨hr', hw'⟩ := Memory.slots_append h g a
  exact ⟨hr.trans hr', hw.trans hw'⟩

/-- The active bank decides the byte each offset of a segment, and of no other, stands for. -/
theorem Memory.segmentIndex_set {m : Memory} {id bank place : Nat} {g : Segment}
    (hg : m.segments[id]? = some g) (hp : g.banks[bank]? = some place) :
    (∀ off, ({ m with segments := m.segments.set id { g with active := bank } } : Memory).segmentIndex
      id off = some (place + off)) ∧
    ∀ j off, j ≠ id → ({ m with segments := m.segments.set id { g with active := bank } } :
      Memory).segmentIndex j off = m.segmentIndex j off := by
  have hid : id < m.segments.length := (List.getElem?_eq_some_iff.1 hg).1
  refine ⟨fun off => ?_, fun j off hj => ?_⟩
  · simp [Memory.segmentIndex, hid, hp]
  · simp [Memory.segmentIndex, List.getElem?_set_ne hj.symm]

/-- Settles O16: the configuration index, by the host and by a hook; a new segment inside, outside and
refused; a bank in range and out of it. -/
theorem configurationsAndBanksSwitchMappings : Obligations.ConfigurationsAndBanksSwitchMappings := by
  refine ⟨fun s index => ⟨setConfiguration_ok, setConfiguration_error,
      fun a v b port reply rest => memWrite_switching⟩,
    fun s name origin size place banks hs => ⟨fun hle => ?segment, fun hlt => ?beyond, ?noBank⟩,
    fun s id bank g hg => ⟨fun place hp => ?select, fun hle => ?outOfRange⟩⟩
  case segment =>
    have hknown : ∀ r ∈ s.mem.maps, r.rd.all (Backing.known s.mem.segments) = true ∧
        r.wr.all (Backing.known s.mem.segments) = true := fun r hr => (hs.maps r hr).2.2
    refine ⟨s.setMem (s.mem.addSegment s.mem.cfg ⟨name, origin, size, place :: banks, 0⟩), ?_, rfl, rfl,
      rfl, fun a => ⟨fun h1 h2 => Memory.slots_addSegment_inside rfl h1 h2,
        fun ha => Memory.slots_addSegment_outside hknown ha⟩⟩
    rw [mapSegment_of_target (c := s.mem.cfg) rfl, if_neg (by simp), if_pos hle]
  case beyond =>
    rw [mapSegment_of_target (c := s.mem.cfg) rfl, if_neg (by simp), if_neg (by omega)]
  case noBank => rw [mapSegment_of_target (c := s.mem.cfg) rfl, if_pos List.isEmpty_nil]
  case select =>
    have hb : bank < g.banks.length := (List.getElem?_eq_some_iff.1 hp).1
    obtain ⟨hsame, hother⟩ := Memory.segmentIndex_set hg hp
    exact ⟨_, (selectBank_of_segment hg bank).trans (if_pos hb), rfl, rfl, rfl, hsame, hother⟩
  case outOfRange => exact (selectBank_of_segment hg bank).trans (if_neg (by omega))

end Sys2Proof.Machine
end

/-! ## Addressing modes (40_step_addressing_flags.md R130 to R138) -/

section
namespace Sys2Proof.Machine

theorem zeroExtend_toNat (b : Byte) : (zeroExtend b).toNat = b.toNat := by
  have := b.isLt
  simp only [zeroExtend, BitVec.toNat_setWidth]
  omega

/-- Settles O18: the three zero-page modes compute their address from a byte sum. -/
theorem zeroPageModesStayInPageZero : Obligations.ZeroPageModesStayInPageZero := fun s nn =>
  ⟨⟨_, rfl, zeroExtend_toNat nn⟩,
    ⟨_, rfl, (zeroExtend_toNat _).trans (BitVec.toNat_add nn s.x)⟩,
    ⟨_, rfl, (zeroExtend_toNat _).trans (BitVec.toNat_add nn s.y)⟩⟩

/-! ### Indexed addresses -/

/-- R137: the sum wraps modulo 65536. -/
theorem indexed_toNat (base : Word) (index : Byte) :
    (indexed base index).1.toNat = (base.toNat + index.toNat) % 65536 := by
  rw [indexed, BitVec.toNat_add, zeroExtend_toNat]

theorem indexed_crossed (base : Word) (index : Byte) :
    (indexed base index).2 = decide (255 < base.toNat % 256 + index.toNat) := by
  rw [indexed, lowByte_toNat]

/-- An overflow of the low byte is a change of the page. -/
theorem indexed_crossed_iff (base : Word) (index : Byte) : (indexed base index).2 = true ↔
    highByte (indexed base index).1 ≠ highByte base := by
  have hb := base.isLt
  have hi := index.isLt
  rw [indexed_crossed, decide_eq_true_iff, ne_eq, BitVec.toNat_eq, highByte_toNat, highByte_toNat,
    indexed_toNat]
  omega

/-- Resolution that faults is the fault of what shapes (c) and (b) ask for. -/
theorem locate_of_error {m : Address} {s : State} {f : Fault} (h : effectiveAddress m s = .error f) :
    locate m s = .error f := Op.bind_of_error h

/-- Settles O19: the absolute modes by `indexed`, and what resolution hands to each shape. -/
theorem absoluteModesReportCrossing : Obligations.AbsoluteModesReportCrossing := by
  refine ⟨fun s w => ⟨rfl,
      ⟨_, _, rfl, indexed_toNat w s.x, indexed_crossed w s.x, indexed_crossed_iff w s.x⟩,
      ⟨_, _, rfl, indexed_toNat w s.y, indexed_crossed w s.y, indexed_crossed_iff w s.y⟩⟩,
    fun m s s1 a c h => ⟨locate_of_ok h, Op.bind_of_ok (locate_of_ok h)⟩,
    fun m s f h => ⟨locate_of_error h, Op.bind_of_error (locate_of_error h)⟩,
    fun m nn => ⟨rfl, rfl, rfl, rfl⟩⟩

/-! ### Pointers -/

/-- The low byte of the next address is the next byte. -/
theorem lowByte_add_one (w : Word) : lowByte (w + 1) = lowByte w + 1 := by
  apply BitVec.eq_of_toNat_eq
  rw [lowByte_toNat, BitVec.toNat_add, BitVec.toNat_add, lowByte_toNat]
  simp

/-- R136: the address next to a pointer on the same page. -/
theorem samePage_next (ptr : Word) : (ptr &&& 0xFF00#16) ||| ((ptr + 1) &&& 0x00FF#16) =
    wordOf (highByte ptr) (lowByte ptr + 1) := by
  have hhigh : wordOf (highByte ptr) (lowByte ptr) &&& wordOf 0xFF#8 0x00#8 =
      wordOf (highByte ptr) 0x00#8 := by
    rw [wordOf, wordOf, BitVec.and_append, BitVec.and_zero]
    exact congrArg (fun b => wordOf b 0x00#8) (BitVec.and_allOnes)
  have hlow : wordOf (highByte (ptr + 1)) (lowByte (ptr + 1)) &&& wordOf 0x00#8 0xFF#8 =
      wordOf 0x00#8 (lowByte (ptr + 1)) := by
    rw [wordOf, wordOf, BitVec.and_append, BitVec.and_zero]
    exact congrArg (wordOf 0x00#8) (BitVec.and_allOnes)
  rw [wordOf_high_low] at hhigh hlow
  calc (ptr &&& 0xFF00#16) ||| ((ptr + 1) &&& 0x00FF#16)
      = wordOf (highByte ptr) 0x00#8 ||| wordOf 0x00#8 (lowByte (ptr + 1)) :=
        congrArg₂ (· ||| ·) hhigh hlow
    _ = wordOf (highByte ptr) (lowByte ptr + 1) := by
        rw [wordOf, wordOf, BitVec.or_append, BitVec.or_zero, BitVec.zero_or, lowByte_add_one]
        rfl

theorem readJumpPointer_eq (ptr : Word) :
    readJumpPointer ptr = readPair ptr (wordOf (highByte ptr) (lowByte ptr + 1)) := by
  rw [readJumpPointer, samePage_next]
  rfl

/-- Where a zero-page pointer has its high byte, by ZP_PTR_WRAP (D4). -/
def pointerHigh (s : State) (p : Byte) : Word :=
  if s.config.zpPtrWrap = .linear then zeroExtend p + 1 else zeroExtend (p + 1)

theorem readZeroPagePointer_eq (p : Byte) (s : State) :
    readZeroPagePointer p s = readPair (zeroExtend p) (pointerHigh s p) s := by
  simp only [readZeroPagePointer, Op.get_bind, pointerHigh]
  cases s.config.zpPtrWrap <;> rfl

/-- The addresses of a pointer's two bytes, and the address made of the word behind it, for the three
modes that read a pointer (R134 to R136). -/
inductive ReadsPointer (s : State) : Address → Word → Word → (Word → Word × Bool) → Prop where
  | indexedIndirectX (nn : Byte) : ReadsPointer s (.indexedIndirectX nn) (zeroExtend (nn + s.x))
      (pointerHigh s (nn + s.x)) fun w => (w, false)
  | indirectIndexedY (nn : Byte) : ReadsPointer s (.indirectIndexedY nn) (zeroExtend nn)
      (pointerHigh s nn) fun w => indexed w s.y
  | indirect (ptr : Word) : ReadsPointer s (.indirect ptr) ptr
      (wordOf (highByte ptr) (lowByte ptr + 1)) fun w => (w, false)

section
variable {s s1 s2 : State} {m : Address} {low high : Word} {result : Word → Word × Bool}
  (h : ReadsPointer s m low high result)
include h

/-- A pointer mode resolves by the pair of reads; a hook they run leaves the index register (R343). -/
theorem ReadsPointer.resolve {w : Word} (hw : readPair low high s = .ok (w, s1)) :
    effectiveAddress m s = .ok (result w, s1) := by
  have hy : s1.y = s.y := by
    have hsame : SameButHooks s s1 :=
      Op.Keeps.bind SameButHooks.composable (memRead_sameButHooks low) (fun _ =>
        Op.Keeps.bind SameButHooks.composable (memRead_sameButHooks high) fun _ =>
          Op.Keeps.pure SameButHooks.composable _) s w s1 hw
    rw [hsame]
  cases h with
  | indexedIndirectX nn =>
    rw [effectiveAddress, Op.get_bind, Op.bind_of_ok ((readZeroPagePointer_eq _ s).trans hw)]
    rfl
  | indirectIndexedY nn =>
    rw [← hy]
    exact Op.bind_of_ok ((readZeroPagePointer_eq nn s).trans hw)
  | indirect =>
    rw [effectiveAddress, readJumpPointer_eq, Op.bind_of_ok hw]
    rfl

theorem ReadsPointer.resolve_error {f : Fault} (hf : readPair low high s = .error f) :
    effectiveAddress m s = .error f := by
  cases h with
  | indexedIndirectX nn =>
    rw [effectiveAddress, Op.get_bind, Op.bind_of_error ((readZeroPagePointer_eq _ s).trans hf)]
  | indirectIndexedY nn => exact Op.bind_of_error ((readZeroPagePointer_eq nn s).trans hf)
  | indirect =>
    rw [effectiveAddress, readJumpPointer_eq, Op.bind_of_error hf]

/-- On bytes that read without side effect. -/
theorem ReadsPointer.resolve_of_peek {lo hi : Byte} (hlo : s.peek low = some lo)
    (hhi : s.peek high = some hi) : effectiveAddress m s = .ok (result (wordOf hi lo), s) :=
  h.resolve (readPair_of_ok (memRead_of_peek hlo) (memRead_of_peek hhi))

end

/-- Settles O20: each pointer mode is its pair of reads; on plain bytes, in general, and faulting. -/
theorem indirectModesReadTheirPointers : Obligations.IndirectModesReadTheirPointers := by
  refine ⟨fun s lo hi => ⟨fun nn => (ReadsPointer.indexedIndirectX nn).resolve_of_peek,
    fun nn hlo hhi => ?_, fun ptr => (ReadsPointer.indirect ptr).resolve_of_peek⟩, fun s m low high result hm => ?_⟩
  · rw [(ReadsPointer.indirectIndexedY nn).resolve_of_peek hlo hhi, indexed, lowByte_wordOf]
  · have h : ReadsPointer s m low high result := by
      rcases hm with ⟨nn, rfl, rfl, rfl, rfl⟩ | ⟨nn, rfl, rfl, rfl, rfl⟩ | ⟨rfl, rfl, rfl⟩
      · exact .indexedIndirectX nn
      · simp only [← lowByte_toNat]
        exact .indirectIndexedY nn
      · exact .indirect low
    exact ⟨fun lo hi s1 s2 h0 h1 => h.resolve (readPair_of_ok h0 h1),
      fun f hf => h.resolve_error (readPair_error_low hf),
      fun lo s1 f h0 h1 => h.resolve_error (readPair_error_high h0 h1)⟩

end Sys2Proof.Machine
end

/-! ## Register-and-flag-only instructions (41_register_only.md) -/

section
namespace Sys2Proof.Machine

/-- One more modulo 256. -/
theorem eq_add_one_of_toNat {r v : Byte} (h : r.toNat = (v.toNat + 1) % 256) : r = v + 1 :=
  BitVec.eq_of_toNat_eq (by rw [h, BitVec.toNat_add]; rfl)

/-- One less modulo 256. -/
theorem eq_sub_one_of_toNat {r v : Byte} (h : r.toNat = (v.toNat + 255) % 256) : r = v - 1 :=
  BitVec.eq_of_toNat_eq (by rw [h, BitVec.toNat_sub, Nat.add_comm]; rfl)

/-- Settles O21: the six transfers, with their rows. -/
theorem transfersCopyRegisters : Obligations.TransfersCopyRegisters :=
  ⟨⟨tableSays _, tableSays _, tableSays _, tableSays _, tableSays _, tableSays _⟩,
    fun _ => ⟨rfl, rfl, rfl, rfl, rfl, rfl⟩⟩

/-- Settles O22: the result byte is the register one more or one less. -/
theorem indexRegistersCount : Obligations.IndexRegistersCount := by
  refine ⟨⟨tableSays _, tableSays _, tableSays _, tableSays _⟩,
    fun s r => ⟨fun h => ?_, fun h => ?_, fun h => ?_, fun h => ?_⟩⟩
  · rw [eq_add_one_of_toNat h]
    rfl
  · rw [eq_add_one_of_toNat h]
    rfl
  · rw [eq_sub_one_of_toNat h]
    rfl
  · rw [eq_sub_one_of_toNat h]
    rfl

/-- Settles O23: each flag's mask set or cleared. -/
theorem flagInstructionsAndNop : Obligations.FlagInstructionsAndNop :=
  ⟨⟨tableSays _, tableSays _, tableSays _, tableSays _, tableSays _, tableSays _, tableSays _,
    tableSays _⟩, fun _ => ⟨rfl, rfl, rfl, rfl, rfl, rfl, rfl, rfl⟩⟩

end Sys2Proof.Machine
end

/-! ## Instructions that consume a byte value (42_byte_operand.md) -/

section
namespace Sys2Proof.Machine

/-- The next state of an instruction of a named mnemonic, from its operand byte. -/
theorem exec_of_byte {i : Instr} {m : Mnemonic} {s s1 : State} {v : Byte} {value : Op Byte}
    (hv : valueOf i.operand = some value) (h : value s = .ok (v, s1)) (hm : i.mnemonic = m)
    (hr : readsByte m = true) : exec i s = .next (byteEffect m v s1) := by
  subst hm
  exact exec_of_value hr hv h

/-- Settles O24: the byte's effect of the three loads. -/
theorem loadsLoadAndSetZN : Obligations.LoadsLoadAndSetZN :=
  ⟨fun _ _ => ⟨⟨tableSays _, tableSays _, tableSays _, tableSays _, tableSays _, tableSays _,
      tableSays _, tableSays _⟩, ⟨tableSays _, tableSays _, tableSays _, tableSays _, tableSays _⟩,
      tableSays _, tableSays _, tableSays _, tableSays _, tableSays _⟩,
    fun _ _ _ _ _ hv h => ⟨fun hm => exec_of_byte hv h hm rfl, fun hm => exec_of_byte hv h hm rfl,
      fun hm => exec_of_byte hv h hm rfl⟩⟩

/-- Reading a flag after an addition or subtraction. -/
@[simp] theorem getFlag_addStatus (g : Flag) (r : AddResult) (p : Byte) :
    getFlag g (r.status p) = if g = .v then r.overflow else if g = .n then r.negative
      else if g = .z then r.zero else if g = .c then r.carry else getFlag g p := by
  simp [AddResult.status]

/-- Settles O25: both are the sum of the raw bytes, with the flags of its status byte. -/
theorem addAndSubtractWithCarry : Obligations.AddAndSubtractWithCarry := by
  refine ⟨fun _ _ => ⟨⟨tableSays _, tableSays _, tableSays _, tableSays _, tableSays _, tableSays _,
      tableSays _, tableSays _⟩, tableSays _, tableSays _, tableSays _, tableSays _, tableSays _,
      tableSays _, tableSays _, tableSays _⟩, fun i s s1 v value hv h r hr => ?_⟩
  have hexec : exec i s = .next (s1.setSum r) := by
    rcases hr with ⟨hm, rfl⟩ | ⟨hm, rfl⟩
    · exact exec_of_byte hv h hm rfl
    · rw [← not_eq_ofNat]
      exact exec_of_byte hv h hm rfl
  exact ⟨r.status s1.p, hexec, by simp, by simp, by simp, by simp, fun f hf => by simp_all⟩

/-- Settles O26: the byte's effect of the three logic instructions. -/
theorem logicOnTheAccumulator : Obligations.LogicOnTheAccumulator :=
  ⟨fun _ _ => ⟨⟨tableSays _, tableSays _, tableSays _, tableSays _, tableSays _, tableSays _,
      tableSays _, tableSays _⟩, ⟨tableSays _, tableSays _, tableSays _, tableSays _, tableSays _,
      tableSays _, tableSays _, tableSays _⟩, tableSays _, tableSays _, tableSays _, tableSays _,
      tableSays _, tableSays _, tableSays _, tableSays _⟩,
    fun _ _ _ _ _ hv h => ⟨fun hm => exec_of_byte hv h hm rfl, fun hm => exec_of_byte hv h hm rfl,
      fun hm => exec_of_byte hv h hm rfl⟩⟩

/-- Settles O27: the byte's effect of the compares and BIT is one of `P`. -/
theorem comparesAndBitChangeFlagsOnly : Obligations.ComparesAndBitChangeFlagsOnly :=
  ⟨fun _ _ => ⟨⟨tableSays _, tableSays _, tableSays _, tableSays _, tableSays _, tableSays _,
      tableSays _, tableSays _⟩, ⟨tableSays _, tableSays _, tableSays _⟩,
      ⟨tableSays _, tableSays _, tableSays _⟩, tableSays _, tableSays _⟩,
    fun _ _ _ _ _ hv h => ⟨fun hm => exec_of_byte hv h hm rfl, fun hm => exec_of_byte hv h hm rfl,
      fun hm => exec_of_byte hv h hm rfl, fun hm => exec_of_byte hv h hm rfl⟩⟩

end Sys2Proof.Machine
end

/-! ## What an instruction leaves unchanged (10_state.md R21 to R35) -/

section
namespace Sys2Proof.Machine

/-- The mnemonics that write A whatever their operand (10_state.md R21). -/
def writersOfA : List Mnemonic := [.lda, .adc, .sbc, .and, .ora, .eor, .pla, .txa, .tya]

/-- What an instruction of mnemonic `m` on operand `o` leaves unchanged, also where hooks run: the
registers and flags it does not write, and everything that is the loop's or the host's. -/
structure Framed (m : Mnemonic) (o : Operand) (s t : State) : Prop where
  a : ¬(m ∈ writersOfA ∨ isShift m = true ∧ o = .accumulator) → t.a = s.a
  x : m ∉ [Mnemonic.ldx, .tax, .tsx, .inx, .dex] → t.x = s.x
  y : m ∉ [Mnemonic.ldy, .tay, .iny, .dey] → t.y = s.y
  sp : m ∉ [Mnemonic.txs, .pha, .php, .pla, .plp, .jsr, .rts, .brk, .rti] → t.sp = s.sp
  pc : ¬(m ∈ [Mnemonic.jmp, .jsr, .rts, .rti, .brk] ∨ isBranch m = true) → t.pc = s.pc
  flags : SameFlagsBut (writtenFlags m) s t
  loop : t.config = s.config ∧ t.call = s.call ∧ t.lifetime = s.lifetime ∧ t.options = s.options ∧
    t.inCall = s.inCall ∧ t.stopReasons = s.stopReasons ∧ t.observers = s.observers ∧
    t.hostQueue = s.hostQueue

variable {m : Mnemonic} {o : Operand}

theorem Framed.refl (s : State) : Framed m o s s :=
  ⟨fun _ => rfl, fun _ => rfl, fun _ => rfl, fun _ => rfl, fun _ => rfl, fun _ _ => rfl,
    rfl, rfl, rfl, rfl, rfl, rfl, rfl, rfl⟩

theorem Framed.composable : Composable (Framed m o) where
  refl := Framed.refl
  trans s t u h1 h2 := by
    obtain ⟨c1, k1, l1, o1, i1, r1, b1, q1⟩ := h1.loop
    obtain ⟨c2, k2, l2, o2, i2, r2, b2, q2⟩ := h2.loop
    exact ⟨fun h => (h2.a h).trans (h1.a h), fun h => (h2.x h).trans (h1.x h),
      fun h => (h2.y h).trans (h1.y h), fun h => (h2.sp h).trans (h1.sp h),
      fun h => (h2.pc h).trans (h1.pc h), fun f hf => (h2.flags f hf).trans (h1.flags f hf),
      c2.trans c1, k2.trans k1, l2.trans l1, o2.trans o1, i2.trans i1, r2.trans r1, b2.trans b1,
      q2.trans q1⟩

/-- What hooks change is in no frame (60_exceptions.md R343). -/
theorem SameButHooks.framed {s t : State} (h : SameButHooks s t) : Framed m o s t := by
  unfold SameButHooks at h
  rw [h]
  exact { Framed.refl s with }

/-- Each part of a mnemonic's behavior stays in its frame. -/
theorem Framed.keeper (m : Mnemonic) (o : Operand) : Keeper (Framed m o) m o where
  composable := Framed.composable
  read a s v t h := (memRead_sameButHooks a s v t h).framed
  write a v s u t h := (memWrite_sameButHooks a v s u t h).framed
  events s _ := { Framed.refl s with }
  setA h s _ := { Framed.refl (m := m) (o := o) s with a := fun hn => absurd h hn }
  setX h s _ := { Framed.refl (m := m) (o := o) s with x := fun hn => absurd h hn }
  setY h s _ := { Framed.refl (m := m) (o := o) s with y := fun hn => absurd h hn }
  setSp h s _ := { Framed.refl (m := m) (o := o) s with sp := fun hn => absurd h hn }
  setPc h s _ := { Framed.refl (m := m) (o := o) s with pc := fun hn => absurd h hn }
  setP s _ h := { Framed.refl (m := m) (o := o) s with flags := h }

/-- Every instruction that answers stays in its frame. -/
theorem exec_framed {i : Instr} {s t : State} (h : exec i s = .next t) :
    Framed i.mnemonic i.operand s t :=
  (Framed.keeper i.mnemonic i.operand).operation s () t (exec_eq_next.1 h)

/-- The byte's effect is on registers alone. -/
theorem byteEffect_memory (v : Byte) (s : State) : (byteEffect m v s).mem = s.mem ∧
    (byteEffect m v s).irq = s.irq ∧ (byteEffect m v s).nmi = s.nmi ∧
    (byteEffect m v s).config = s.config := by
  unfold byteEffect
  split <;> exact ⟨rfl, rfl, rfl, rfl⟩

/-- The flags of a group of mnemonics that write the same ones. -/
theorem Framed.flags_of_mem {s t : State} (h : Framed m o s t) {ms : List Mnemonic} {fs : List Flag}
    (hfs : ∀ n ∈ ms, writtenFlags n = fs) (hm : m ∈ ms) : SameFlagsBut fs s t := hfs m hm ▸ h.flags

/-- Which registers the mnemonics of 42_byte_operand.md write. -/
theorem byteMnemonic_writes (o : Operand)
    (hm : m ∈ [Mnemonic.lda, .ldx, .ldy, .adc, .sbc, .and, .ora, .eor, .cmp, .cpx, .cpy, .bit]) :
    ¬(m ∈ [Mnemonic.jmp, .jsr, .rts, .rti, .brk] ∨ isBranch m = true) ∧
    m ∉ [Mnemonic.txs, .pha, .php, .pla, .plp, .jsr, .rts, .brk, .rti] ∧
    (m ∈ writersOfA ∨ isShift m = true ∧ o = .accumulator →
      m ∈ [Mnemonic.lda, .adc, .sbc, .and, .ora, .eor]) ∧
    (m ∈ [Mnemonic.ldx, .tax, .tsx, .inx, .dex] → m = .ldx) ∧
    (m ∈ [Mnemonic.ldy, .tay, .iny, .dey] → m = .ldy) := by
  have h : ∀ m ∈ [Mnemonic.lda, .ldx, .ldy, .adc, .sbc, .and, .ora, .eor, .cmp, .cpx, .cpy, .bit],
      ¬(m ∈ [Mnemonic.jmp, .jsr, .rts, .rti, .brk] ∨ isBranch m = true) ∧
      m ∉ [Mnemonic.txs, .pha, .php, .pla, .plp, .jsr, .rts, .brk, .rti] ∧
      (m ∈ writersOfA ∨ isShift m = true → m ∈ [Mnemonic.lda, .adc, .sbc, .and, .ora, .eor]) ∧
      (m ∈ [Mnemonic.ldx, .tax, .tsx, .inx, .dex] → m = .ldx) ∧
      (m ∈ [Mnemonic.ldy, .tay, .iny, .dey] → m = .ldy) := by decide
  obtain ⟨hpc, hsp, ha, hx, hy⟩ := h m hm
  exact ⟨hpc, hsp, fun h => ha (h.imp_right And.left), hx, hy⟩

/-- Settles O28: the frame of the twelve byte mnemonics, and on plain memory an operand byte obtained
without a trace. -/
theorem valueInstructionsFrame : Obligations.ValueInstructionsFrame := by
  intro i s t hm h
  have hf := exec_framed h
  have hr : readsByte i.mnemonic = true := List.contains_iff_mem.2 hm
  obtain ⟨hpc, hsp, ha, hx, hy⟩ := byteMnemonic_writes i.operand hm
  refine ⟨⟨hf.pc hpc, hf.sp hsp⟩, fun h => hf.a (mt ha h), fun h => hf.x (mt hx h),
    fun h => hf.y (mt hy h), hf.flags_of_mem (by decide), hf.flags_of_mem (by decide),
    hf.flags_of_mem (by decide), fun hb => hf.flags_of_mem (ms := [.bit]) (by decide) (by simp [hb]),
    hf.loop, fun hp => ?_⟩
  obtain ⟨value, v, s1, hv, h1, rfl⟩ := exec_value_next hr h
  obtain ⟨e, rfl⟩ := valueOf_plain hv hp h1
  obtain ⟨hmem, hirq, hnmi, hconfig⟩ := byteEffect_memory (m := i.mnemonic) v (s.setEvents e)
  exact ⟨hmem, hirq, hnmi, State.peek_congr hmem hconfig⟩

end Sys2Proof.Machine
end

/-! ## Instructions that consume a resolved address (43_address_operand.md, 44_shift_rotate.md) -/

section
namespace Sys2Proof.Machine

/-- The next state of an instruction of a named mnemonic, from its resolved address. -/
theorem exec_of_resolved {i : Instr} {m : Mnemonic} {s s1 t : State} {addr : Word} {address : Op Word}
    (hv : addressOf i.operand = some address) (h : address s = .ok (addr, s1)) (hm : i.mnemonic = m)
    (hr : readsByte m = false) (h2 : addressOp m addr s1 = .ok ((), t)) : exec i s = .next t := by
  subst hm
  exact exec_of_address hr hv h h2

/-- Settles O29: one write of the register at the resolved address. -/
theorem storesWriteTheRegister : Obligations.StoresWriteTheRegister := by
  refine ⟨fun _ _ => ⟨⟨tableSays _, tableSays _, tableSays _, tableSays _, tableSays _, tableSays _,
      tableSays _⟩, ⟨tableSays _, tableSays _, tableSays _⟩, tableSays _, tableSays _, tableSays _⟩,
    fun i s s1 addr address r hv h hr => ?_⟩
  have hwrite : ∀ t, memWrite addr r s1 = .ok ((), t) → exec i s = .next t := by
    intro t ht
    rcases hr with ⟨hm, rfl⟩ | ⟨hm, rfl⟩ | ⟨hm, rfl⟩
    · exact exec_of_resolved hv h hm rfl ht
    · exact exec_of_resolved hv h hm rfl ht
    · exact exec_of_resolved hv h hm rfl ht
  exact ⟨hwrite, fun k hk => hwrite _ (memWrite_of_slot hk r)⟩

/-- INC and DEC when the read and the write answer (R223, R224). -/
theorem modifyMemory_of_ok {f : Byte → Byte} {addr : Word} {s t u : State} {v : Byte}
    (hread : memRead addr s = .ok (v, t)) (hwrite : memWrite addr (f v) t = .ok ((), u)) :
    modifyMemory f addr s = .ok ((), u.setZN (f v)) := by
  simp only [modifyMemory]
  rw [Op.bind_of_ok hread, Op.bind_of_ok hwrite]
  rfl

/-- Settles O30: the read, the write of the result, and its Z and N. -/
theorem incrementAndDecrementMemory : Obligations.IncrementAndDecrementMemory := by
  refine ⟨fun _ _ => ⟨⟨tableSays _, tableSays _, tableSays _, tableSays _⟩, tableSays _, tableSays _,
    tableSays _, tableSays _⟩, fun i s s1 s2 s3 addr address v r hv h hread hr hwrite => ?_⟩
  rcases hr with ⟨hm, hr⟩ | ⟨hm, hr⟩
  · obtain rfl := eq_add_one_of_toNat hr
    exact exec_of_resolved hv h hm rfl (modifyMemory_of_ok (f := fun v => v + 1) hread hwrite)
  · obtain rfl := eq_sub_one_of_toNat hr
    exact exec_of_resolved hv h hm rfl (modifyMemory_of_ok (f := fun v => v - 1) hread hwrite)

/-- Settles O31: JMP writes the address it is handed to PC; its pointer is read as R136 says. -/
theorem jumpGoesToTheAddress : Obligations.JumpGoesToTheAddress := by
  have jump : ∀ (i : Instr) (s s1 : State) (addr : Word) (address : Op Word), i.mnemonic = .jmp →
      addressOf i.operand = some address → address s = .ok (addr, s1) →
      exec i s = .next { s1 with pc := addr } :=
    fun i s s1 addr address hm hv h => exec_of_resolved hv h hm rfl rfl
  refine ⟨fun _ => ⟨tableSays _, tableSays _⟩, fun s w => ⟨{ s.events with crossed := false }, rfl⟩,
    fun s ptr lo hi hlo hhi => ⟨{ s.events with crossed := false }, ?_⟩, jump⟩
  rw [samePage_next] at hhi
  exact jump (.jmpInd ptr) s (s.setEvents { s.events with crossed := false }) _ _ rfl rfl
    (locate_of_ok ((ReadsPointer.indirect ptr).resolve_of_peek hlo hhi))

/-- The mnemonics of 44_shift_rotate.md act on memory by their helper. -/
theorem addressOp_shift {m : Mnemonic} (h : isShift m = true) :
    addressOp m = shiftMemory (shifter m) := by
  simp only [isShift, List.contains_iff_mem, List.mem_cons, List.not_mem_nil, or_false] at h
  rcases h with rfl | rfl | rfl | rfl <;> rfl

/-- A shift on memory when the read and the write answer (R240). -/
theorem shiftMemory_of_ok {f : Byte → Bool → ShiftResult} {addr : Word} {s t u : State} {v : Byte}
    (hread : memRead addr s = .ok (v, t))
    (hwrite : memWrite addr (f v (t.flag .c)).value t = .ok ((), u)) :
    shiftMemory f addr s = .ok ((), u.setP ((f v (t.flag .c)).status u.p)) := by
  simp only [shiftMemory]
  rw [Op.bind_of_ok hread, Op.get_bind, Op.bind_of_ok hwrite]
  rfl

/-- A shift's next state on the accumulator (R240). -/
theorem exec_accumulator {i : Instr} (h : i.operand = .accumulator) (s : State) :
    exec i s = .next ((s.setA (shifter i.mnemonic s.a (s.flag .c)).value).setP
      ((shifter i.mnemonic s.a (s.flag .c)).status s.p)) := by
  rw [exec_eq_next]
  unfold operation
  rw [h]
  rfl

/-- Settles O32: both forms run the mnemonic's helper. -/
theorem shiftsOnAccumulatorAndMemory : Obligations.ShiftsOnAccumulatorAndMemory := by
  refine ⟨fun _ _ => ⟨⟨tableSays _, tableSays _, tableSays _, tableSays _, tableSays _⟩,
    ⟨tableSays _, tableSays _, tableSays _, tableSays _, tableSays _⟩,
    ⟨tableSays _, tableSays _, tableSays _, tableSays _, tableSays _⟩,
    tableSays _, tableSays _, tableSays _, tableSays _, tableSays _⟩, fun i f hf => ?_⟩
  have hshift : isShift i.mnemonic = true ∧ f = shifter i.mnemonic := by
    rcases hf with ⟨hm, rfl⟩ | ⟨hm, rfl⟩ | ⟨hm, rfl⟩ | ⟨hm, rfl⟩ <;> rw [hm] <;> exact ⟨rfl, rfl⟩
  obtain ⟨hm, rfl⟩ := hshift
  have hbyte : readsByte i.mnemonic = false := by
    rcases hf with ⟨hm, -⟩ | ⟨hm, -⟩ | ⟨hm, -⟩ | ⟨hm, -⟩ <;> rw [hm] <;> rfl
  refine ⟨fun s ho => exec_accumulator ho s, fun s s1 s2 s3 addr address v r hv h hread hr hwrite => ?_⟩
  subst hr
  refine exec_of_resolved hv h rfl hbyte ?_
  rw [addressOp_shift hm]
  exact shiftMemory_of_ok hread hwrite

end Sys2Proof.Machine
end

/-! ## What a program can change (10_state.md R21 to R35) -/

section
namespace Sys2Proof.Machine

/-- From plain memory, `t` differs in what a program can change. -/
def ProgramOnPlain (s t : State) : Prop := s.mem.plain = true → SameButProgram s t

/-- What a program changes leaves memory plain. -/
theorem SameButProgram.plain {s t : State} (h : SameButProgram s t) : t.mem.plain = s.mem.plain := by
  unfold SameButProgram at h
  rw [h]
  rfl

theorem ProgramOnPlain.composable : Composable ProgramOnPlain where
  refl s _ := SameButProgram.composable.refl s
  trans s t u h1 h2 hp :=
    SameButProgram.composable.trans s t u (h1 hp) (h2 ((h1 hp).plain.trans hp))

/-- Each part of a behavior on plain memory changes what a program can change. -/
theorem ProgramOnPlain.keeper (m : Mnemonic) (o : Operand) : Keeper ProgramOnPlain m o where
  composable := ProgramOnPlain.composable
  read a s v t h hp := by
    obtain ⟨rfl, -⟩ := memRead_plain hp h
    rfl
  write a v s u t h hp := by
    rcases memWrite_plain hp h with ⟨k, -, rfl⟩ | ⟨-, rfl⟩ <;> rfl
  events _ _ _ := rfl
  setA _ _ _ _ := rfl
  setX _ _ _ _ := rfl
  setY _ _ _ _ := rfl
  setSp _ _ _ _ := rfl
  setPc _ _ _ _ := rfl
  setP _ _ _ _ := rfl

/-- An instruction on plain memory changes what a program can change. -/
theorem exec_sameButProgram {i : Instr} {s t : State} (hp : s.mem.plain = true)
    (h : exec i s = .next t) : SameButProgram s t :=
  (ProgramOnPlain.keeper i.mnemonic i.operand).operation s () t (exec_eq_next.1 h) hp

/-- Settles O47: another registry is a disguise that no access on plain memory looks behind. -/
theorem instructionsLeaveTheRegistryAlone : Obligations.InstructionsLeaveTheRegistryAlone := by
  refine ⟨fun i s t hp h => exec_sameButProgram hp h, fun i s irq nmi hp => ?_⟩
  rw [State.withRegistry_eq_disguise]
  exact (Commuter.plain (fun _ => irq) fun _ => nmi).exec i hp

/-- A branch has a Relative operand (45_branches.md R250). -/
theorem isRelative_of_isBranch {i : Instr} (h : isBranch i.mnemonic = true) :
    isRelative i.operand = true := by
  cases i with
  | bcc | bcs | beq | bne | bmi | bpl | bvc | bvs => rfl
  | _ => exact absurd h Bool.false_ne_true

/-- Settles O44: the registers an instruction's frame leaves out. -/
theorem onlyTheirWritersChangeRegisters : Obligations.OnlyTheirWritersChangeRegisters := by
  intro i s t h
  have hf := exec_framed h
  exact ⟨fun ha => (Decidable.not_imp_comm.1 hf.a ha).imp_right And.right,
    Decidable.not_imp_comm.1 hf.x, Decidable.not_imp_comm.1 hf.y, Decidable.not_imp_comm.1 hf.sp,
    fun hpc => (Decidable.not_imp_comm.1 hf.pc hpc).imp_right isRelative_of_isBranch⟩

/-- The mnemonics that write each flag, and none writes Break or Unused (10_state.md R25 to R32). -/
theorem writtenFlags_writers (m : Mnemonic) :
    (Flag.c ∈ writtenFlags m → m ∈ [Mnemonic.adc, .sbc, .cmp, .cpx, .cpy, .asl, .lsr, .rol, .ror, .clc,
      .sec, .plp, .rti]) ∧
    (Flag.z ∈ writtenFlags m ∨ Flag.n ∈ writtenFlags m → m ∈ [Mnemonic.lda, .ldx, .ldy, .tax, .tay, .txa,
      .tya, .tsx, .pla, .and, .ora, .eor, .inc, .dec, .inx, .iny, .dex, .dey, .asl, .lsr, .rol, .ror,
      .adc, .sbc, .cmp, .cpx, .cpy, .bit, .plp, .rti]) ∧
    (Flag.i ∈ writtenFlags m → m ∈ [Mnemonic.sei, .cli, .brk, .plp, .rti]) ∧
    (Flag.d ∈ writtenFlags m → m ∈ [Mnemonic.sed, .cld, .plp, .rti]) ∧
    (Flag.v ∈ writtenFlags m → m ∈ [Mnemonic.adc, .sbc, .bit, .clv, .plp, .rti]) ∧
    Flag.b ∉ writtenFlags m ∧ Flag.u ∉ writtenFlags m := by
  cases m <;> decide

/-- Settles O45: the flags an instruction's frame leaves out. -/
theorem onlyTheirWritersChangeFlags : Obligations.OnlyTheirWritersChangeFlags := by
  intro i s t h
  have hf := exec_framed h
  have written : ∀ f : Flag, t.flag f ≠ s.flag f → f ∈ writtenFlags i.mnemonic := fun f =>
    Decidable.not_imp_comm.1 (hf.flags f)
  obtain ⟨hc, hzn, hi, hd, hv, hb, hu⟩ := writtenFlags_writers i.mnemonic
  exact ⟨fun h => hc (written _ h), fun h => hzn (h.imp (written _) (written _)),
    fun h => hi (written _ h), fun h => hd (written _ h), fun h => hv (written _ h),
    hf.flags _ hb, hf.flags _ hu⟩

/-! ### The frame of the memory writers -/

/-- What the mnemonics of 43_address_operand.md and 44_shift_rotate.md write at the resolved address. -/
theorem addressOp_writes {m : Mnemonic} {addr : Word} {s t : State}
    (hm : m ∈ [Mnemonic.sta, .stx, .sty, .inc, .dec, .asl, .lsr, .rol, .ror])
    (hp : s.mem.plain = true) (h : addressOp m addr s = .ok ((), t)) :
    ∃ v u, memWrite addr v s = .ok ((), u) ∧ t.mem = u.mem ∧ t.config = u.config := by
  have modify : ∀ f, modifyMemory f addr s = .ok ((), t) →
      ∃ v u, memWrite addr v s = .ok ((), u) ∧ t.mem = u.mem ∧ t.config = u.config := by
    intro f h
    obtain ⟨v, u, -, hwrite, rfl⟩ := modifyMemory_plain hp h
    exact ⟨_, u, hwrite, rfl, rfl⟩
  by_cases hs : isShift m = true
  · rw [addressOp_shift hs] at h
    obtain ⟨v, u, -, hwrite, rfl⟩ := shiftMemory_plain hp h
    exact ⟨_, u, hwrite, rfl, rfl⟩
  · have hm' : m ∈ [Mnemonic.sta, .stx, .sty, .inc, .dec] := by
      revert hs
      exact (by decide : ∀ m ∈ [Mnemonic.sta, .stx, .sty, .inc, .dec, .asl, .lsr, .rol, .ror],
        ¬isShift m = true → m ∈ [Mnemonic.sta, .stx, .sty, .inc, .dec]) m hm
    simp only [List.mem_cons, List.not_mem_nil, or_false] at hm'
    rcases hm' with rfl | rfl | rfl | rfl | rfl
    · exact ⟨_, t, h, rfl, rfl⟩
    · exact ⟨_, t, h, rfl, rfl⟩
    · exact ⟨_, t, h, rfl, rfl⟩
    · exact modify _ h
    · exact modify _ h

/-- Of these mnemonics those without an address are on the accumulator. -/
theorem accumulator_of_no_address {i : Instr}
    (hm : i.mnemonic ∈ [Mnemonic.sta, .stx, .sty, .inc, .dec, .asl, .lsr, .rol, .ror])
    (h : addressOf i.operand = none) : i.operand = .accumulator := by
  obtain ⟨hbyte, hbranch, haddr⟩ := (by decide :
    ∀ m ∈ [Mnemonic.sta, .stx, .sty, .inc, .dec, .asl, .lsr, .rol, .ror], readsByte m = false ∧
      isBranch m = false ∧ (isShift m || takesAddress m) = true) _ hm
  have hi := isBehavior_operation i
  generalize operation i = op at hi
  cases hi with
  | bare _ _ hs ht => simp [hs, ht] at haddr
  | value hr _ => simp [hr] at hbyte
  | branch hb _ => simp [hb] at hbranch
  | accumulator _ ho => exact ho
  | address _ hv => simp [hv] at h

/-- A write on plain memory leaves every address that does not read from its byte. -/
theorem memWrite_peek {s t : State} {addr b : Word} {v : Byte} (hp : s.mem.plain = true)
    (hwf : s.mem.wf = true) (h : memWrite addr v s = .ok ((), t))
    (hb : ∀ k, s.writeSlot addr = some (.byte k) → s.readSlot b ≠ some (.byte k)) :
    t.peek b = s.peek b := by
  rcases memWrite_plain hp h with ⟨k, hk, rfl⟩ | ⟨-, rfl⟩
  · exact State.peek_store hwf k v b (hb k hk)
  · rfl

/-- Settles O33: one write at the resolved address, and the frame of the registers and flags. -/
theorem memoryWritersFrame : Obligations.MemoryWritersFrame := by
  intro i s t hm hp hwf h
  have hf := exec_framed h
  obtain ⟨hbyte, hpc, hsp, hx, hy, ha⟩ := (by decide :
    ∀ m ∈ [Mnemonic.sta, .stx, .sty, .inc, .dec, .asl, .lsr, .rol, .ror], readsByte m = false ∧
      ¬(m ∈ [Mnemonic.jmp, .jsr, .rts, .rti, .brk] ∨ isBranch m = true) ∧
      m ∉ [Mnemonic.txs, .pha, .php, .pla, .plp, .jsr, .rts, .brk, .rti] ∧
      m ∉ [Mnemonic.ldx, .tax, .tsx, .inx, .dex] ∧ m ∉ [Mnemonic.ldy, .tay, .iny, .dey] ∧
      m ∉ writersOfA) _ hm
  refine ⟨⟨hf.pc hpc, hf.sp hsp, hf.x hx, hf.y hy⟩,
    fun ho => hf.a (not_or.2 ⟨ha, fun h => ho h.2⟩),
    fun hs => status_ext fun f => hf.flags_of_mem (fs := []) (by decide) hs f (by simp),
    hf.flags_of_mem (by decide), hf.flags_of_mem (by decide), exec_sameButProgram hp h,
    fun ho => ?_, fun address addr s1 hv h1 b hb => ?_⟩
  · rw [exec_accumulator (accumulator_of_no_address hm ho)] at h
    obtain rfl := Host.Outcome.next.inj h
    exact fun _ => rfl
  · obtain ⟨addr', s1', h1', hop⟩ := exec_address_next hbyte hv h
    obtain ⟨rfl, rfl⟩ := Prod.mk.inj (Except.ok.inj (h1.symm.trans h1'))
    obtain ⟨e, rfl⟩ := addressOf_plain hv hp h1
    obtain ⟨v, u, hwrite, hmem, hconfig⟩ :=
      addressOp_writes (s := s.setEvents e) hm hp hop
    rw [State.peek_congr hmem hconfig]
    exact memWrite_peek (s := s.setEvents e) hp hwf hwrite hb

/-! ### Memory that is RAM throughout -/

/-- A shape (a) effect is on registers alone. -/
theorem registerEffect_sameButProgram (m : Mnemonic) (s : State) :
    SameButProgram s (registerEffect m s) := by
  unfold registerEffect
  split <;> rfl

/-- So is a shape (b) effect. -/
theorem byteEffect_sameButProgram (m : Mnemonic) (v : Byte) (s : State) :
    SameButProgram s (byteEffect m v s) := by
  unfold byteEffect
  split <;> rfl

theorem branch_sameButProgram (cond : Bool) (nn : Byte) (s : State) :
    SameButProgram s (branch cond nn s) := by
  cases cond <;> rfl

theorem impliedOp_onRam (m : Mnemonic) : Op.OnRam (impliedOp m) := by
  unfold impliedOp
  split
  · exact Op.OnRam.bind .get fun _ => push8_onRam _
  · exact pull8_onRam.bind fun _ => .modify fun _ => rfl
  · exact Op.OnRam.bind .get fun _ => push8_onRam _
  · exact pullStatus_onRam
  · exact pull16_onRam.bind fun _ => .modify fun _ => rfl
  · exact Op.OnRam.bind .get fun _ => enterException_onRam _ _ _
  · exact returnFromException_onRam
  · exact .modify fun s => registerEffect_sameButProgram _ s

theorem addressOp_onRam (m : Mnemonic) (addr : Word) : Op.OnRam (addressOp m addr) := by
  have modify : ∀ f, Op.OnRam (modifyMemory f addr) := fun f =>
    (memRead_onRam _).bind fun _ => (memWrite_onRam _ _).bind fun _ => .modify fun _ => rfl
  unfold addressOp
  split
  · exact Op.OnRam.bind .get fun _ => memWrite_onRam _ _
  · exact Op.OnRam.bind .get fun _ => memWrite_onRam _ _
  · exact Op.OnRam.bind .get fun _ => memWrite_onRam _ _
  · exact modify _
  · exact modify _
  · exact .modify fun _ => rfl
  · exact Op.OnRam.bind .get fun _ => (push16_onRam _).bind fun _ => .modify fun _ => rfl
  · exact (memRead_onRam _).bind fun _ => Op.OnRam.bind .get fun _ =>
      (memWrite_onRam _ _).bind fun _ => .modify fun _ => rfl

/-- Every instruction's operation answers, by its operand form. -/
theorem operation_onRam (i : Instr) : Op.OnRam (operation i) := by
  unfold operation
  split
  · exact impliedOp_onRam _
  · exact Op.OnRam.bind .get fun _ => .modify fun _ => rfl
  · exact .modify fun s => byteEffect_sameButProgram _ _ s
  · exact .modify fun s => branch_sameButProgram _ _ s
  · split
    · exact (loadOperand_onRam _).bind fun v => .modify fun s => byteEffect_sameButProgram _ v s
    · exact (locate_onRam _).bind fun a => addressOp_onRam _ a

/-- Settles O42: every part of every operation answers on RAM. -/
theorem everyInstructionCompletesOnRam : Obligations.EveryInstructionCompletesOnRam := by
  intro i s h
  obtain ⟨_, t, hop, hram, hsame⟩ := operation_onRam i s h
  exact ⟨t, exec_eq_next.2 hop, hram, hsame⟩

end Sys2Proof.Machine
end

/-! ## Branches (45_branches.md) -/

section
namespace Sys2Proof.Machine

/-- The signed offset as a number modulo 65536 (R250). -/
theorem signExtend_toNat (nn : Byte) :
    (signExtend nn).toNat = nn.toNat + if nn.toNat < 128 then 0 else 0xFF00 := by
  have hlt := nn.isLt
  rw [signExtend, BitVec.toNat_signExtend, BitVec.msb_eq_decide, BitVec.toNat_setWidth_of_le (by decide)]
  by_cases h : nn.toNat < 128
  · simp [h]
  · simp [h, Nat.not_lt.1 h]

/-- The branch target, from its number. -/
theorem eq_branchTarget {pc target : Word} {nn : Byte} (h : target.toNat =
    (pc.toNat + nn.toNat + (if nn.toNat < 128 then 0 else 0xFF00)) % 65536) :
    target = branchTarget pc nn := by
  refine BitVec.eq_of_toNat_eq ?_
  rw [h, branchTarget, BitVec.toNat_add, signExtend_toNat, Nat.add_assoc]

/-- Different high bytes are different pages (00_scope.md R9). -/
theorem highByte_ne_iff (v w : Word) : (highByte v != highByte w) =
    decide (v.toNat / 256 ≠ w.toNat / 256) := by
  rw [← highByte_toNat, ← highByte_toNat, bne, beq_eq_decide, decide_not]
  simp only [BitVec.toNat_inj]

/-- A branch's default cycles (R161). -/
theorem classCycles_relative {o : Operand} (h : isRelative o = true) (m : Mnemonic) :
    classCycles m o = 2 := by
  cases o with
  | relative nn => rfl
  | _ => exact absurd h Bool.false_ne_true

/-- Settles O34: the condition of each mnemonic, the target, and the row's branch mark. -/
theorem branchesAddTheSignedOffset : Obligations.BranchesAddTheSignedOffset := by
  refine ⟨fun _ => ⟨tableSays _, tableSays _, tableSays _, tableSays _, tableSays _, tableSays _,
    tableSays _, tableSays _⟩, fun i nn s cond hi => ?_, fun i taken other row hi hrow => ?_⟩
  · have hexec : exec i s = .next (branch cond nn s) := by
      rcases hi with ⟨rfl, rfl⟩ | ⟨rfl, rfl⟩ | ⟨rfl, rfl⟩ | ⟨rfl, rfl⟩ | ⟨rfl, rfl⟩ | ⟨rfl, rfl⟩ |
        ⟨rfl, rfl⟩ | ⟨rfl, rfl⟩ <;> rfl
    refine ⟨fun hc => ?_, fun hc target ht => ?_⟩
    · rw [hexec, hc]
      rfl
    · rw [hexec, hc, ← highByte_ne_iff, eq_branchTarget ht]
      rfl
  · obtain rfl := Option.some.inj ((findRow_default i).symm.trans hrow)
    rw [stepCycles_eq]
    simp [classRow, hi, classCycles_relative hi, Config.default]

end Sys2Proof.Machine
end

/-! ## Stack, subroutines, software interrupt (46_stack_subroutine_interrupt.md) -/

section
namespace Sys2Proof.Machine

/-! ### Stack pointers -/

theorem sub_one_sub_one (v : Byte) : v - 1 - 1 = v - 2 := by bv_omega

theorem sub_one_thrice (v : Byte) : v - 1 - 1 - 1 = v - 3 := by bv_omega

theorem add_one_add_one (v : Byte) : v + 1 + 1 = v + 2 := by bv_omega

theorem add_one_thrice (v : Byte) : v + 1 + 1 + 1 = v + 3 := by bv_omega

/-! ### Pushes and pulls, from their accesses (40_step_addressing_flags.md R150 to R153) -/

section
variable {s s1 s2 s3 t : State} {v b lo hi : Byte} {w : Word} {f : Fault}

theorem push8_of_ok (h : memWrite (stackAddress s.sp) v s = .ok ((), t)) :
    push8 v s = .ok ((), t.setSp (s.sp - 1)) := by
  have hsp : t.sp = s.sp := by
    have hsame := memWrite_sameButHooks _ _ _ _ _ h
    unfold SameButHooks at hsame
    rw [hsame]
  rw [← hsp]
  simp only [push8, Op.get_bind]
  rw [Op.bind_of_ok h]
  rfl

theorem push8_of_error (h : memWrite (stackAddress s.sp) v s = .error f) : push8 v s = .error f := by
  simp only [push8, Op.get_bind]
  exact Op.bind_of_error h

theorem push16_of_ok (h1 : push8 (highByte w) s = .ok ((), s1))
    (h2 : push8 (lowByte w) s1 = .ok ((), s2)) : push16 w s = .ok ((), s2) := by
  rw [push16, Op.bind_of_ok h1, h2]

theorem push16_of_error_low (h1 : push8 (highByte w) s = .ok ((), s1))
    (h2 : push8 (lowByte w) s1 = .error f) : push16 w s = .error f := by
  rw [push16, Op.bind_of_ok h1, h2]

theorem pull16_of_ok (h1 : pull8 s = .ok (lo, s1)) (h2 : pull8 s1 = .ok (hi, s2)) :
    pull16 s = .ok (wordOf hi lo, s2) := by
  rw [pull16, Op.bind_of_ok h1, Op.bind_of_ok h2]
  rfl

theorem pull16_of_error_high (h1 : pull8 s = .ok (lo, s1)) (h2 : pull8 s1 = .error f) :
    pull16 s = .error f := by
  rw [pull16, Op.bind_of_ok h1, Op.bind_of_error h2]

/-- A word that two RAM bytes below SP hold is pulled with SP restored (R153). -/
theorem pull16_of_pushed {k k' : Nat} (hwf : s.mem.wf = true) (h : s.RamAt (stackAddress s.sp) k)
    (h' : s.RamAt (stackAddress (s.sp - 1)) k') (hk : k ≠ k')
    (hmem : t.mem = (s.mem.store k (highByte w)).store k' (lowByte w)) (hc : t.config = s.config)
    (hsp : t.sp = s.sp - 1 - 1) : pull16 t = .ok (w, t.setSp s.sp) := by
  obtain ⟨hhigh, hlow⟩ := State.peek_store_pair hwf h h' hk (highByte w) (lowByte w)
  have hpeek := State.peek_congr
    (s := s.setMem ((s.mem.store k (highByte w)).store k' (lowByte w))) hmem hc
  rw [← hpeek] at hhigh hlow
  have hfirst : t.sp + 1 = s.sp - 1 := by rw [hsp, BitVec.sub_add_cancel]
  have hsecond : t.sp + 1 + 1 = s.sp := by rw [hfirst, BitVec.sub_add_cancel]
  rw [pull16_of_peek (lo := lowByte w) (hi := highByte w) (by rw [hfirst, hlow])
    (by rw [hsecond, hhigh]), hsecond, wordOf_high_low]

/-! ### Exceptions, from their pushes and reads (R276, R277) -/

variable {returnPc vector : Word} {copy : Byte → Byte}

theorem enterException_of_ok (h1 : push16 returnPc s = .ok ((), s1))
    (h2 : push8 (copy s1.p) s1 = .ok ((), s2))
    (h3 : memReadWord vector (s2.putFlag .i true) = .ok (w, s3)) :
    enterException returnPc copy vector s = .ok ((), s3.setPc w) := by
  rw [enterException, Op.bind_of_ok h1, Op.get_bind, Op.bind_of_ok h2, Op.modify_bind, Op.bind_of_ok h3]
  rfl

theorem enterException_of_error (h : push16 returnPc s = .error f) :
    enterException returnPc copy vector s = .error f := by
  rw [enterException, Op.bind_of_error h]

theorem enterException_of_error_status (h1 : push16 returnPc s = .ok ((), s1))
    (h2 : push8 (copy s1.p) s1 = .error f) : enterException returnPc copy vector s = .error f := by
  rw [enterException, Op.bind_of_ok h1, Op.get_bind, Op.bind_of_error h2]

theorem enterException_of_error_vector (h1 : push16 returnPc s = .ok ((), s1))
    (h2 : push8 (copy s1.p) s1 = .ok ((), s2))
    (h3 : memReadWord vector (s2.putFlag .i true) = .error f) :
    enterException returnPc copy vector s = .error f := by
  rw [enterException, Op.bind_of_ok h1, Op.get_bind, Op.bind_of_ok h2, Op.modify_bind,
    Op.bind_of_error h3]

theorem pullStatus_of_ok (h : pull8 s = .ok (b, s1)) :
    pullStatus s = .ok ((), s1.setP (restoredStatus b s1.p)) := by
  rw [pullStatus, Op.bind_of_ok h]
  rfl

theorem returnFromException_of_ok (h1 : pull8 s = .ok (b, s1))
    (h2 : pull16 (s1.setP (restoredStatus b s1.p)) = .ok (w, s2)) :
    returnFromException s = .ok ((), s2.setPc w) := by
  rw [returnFromException, Op.bind_of_ok (pullStatus_of_ok h1), Op.bind_of_ok h2]
  rfl

/-- RTI from three addresses that can be peeked. -/
theorem returnFromException_of_peek (h1 : s.peek (stackAddress (s.sp + 1)) = some b)
    (h2 : s.peek (stackAddress (s.sp + 2)) = some lo)
    (h3 : s.peek (stackAddress (s.sp + 3)) = some hi) : returnFromException s = .ok ((),
      ((s.setSp (s.sp + 3)).setP (restoredStatus b s.p)).setPc (wordOf hi lo)) := by
  rw [← add_one_add_one] at h2
  rw [← add_one_thrice] at h3
  rw [returnFromException_of_ok (pull8_of_peek h1)
    (pull16_of_peek (s := (s.setSp (s.sp + 1)).setP (restoredStatus b s.p)) h2 h3), ← add_one_thrice]
  rfl

theorem jsrBehavior_of_ok (h : push16 (s.pc - 1) s = .ok ((), t)) (w : Word) :
    jsrBehavior w s = .ok ((), t.setPc w) := by
  rw [jsrBehavior, Op.get_bind, Op.bind_of_ok h]
  rfl

theorem jsrBehavior_of_error (h : push16 (s.pc - 1) s = .error f) (w : Word) :
    jsrBehavior w s = .error f := by
  rw [jsrBehavior, Op.get_bind, Op.bind_of_error h]

/-- What JSR that answers did. -/
theorem jsrBehavior_eq (h : jsrBehavior w s = .ok ((), t)) :
    ∃ u, push16 (s.pc - 1) s = .ok ((), u) ∧ t = u.setPc w := by
  rw [jsrBehavior, Op.get_bind] at h
  obtain ⟨_, u, hpush, hjump⟩ := Op.bind_ok_iff.1 h
  exact ⟨u, hpush, (congrArg Prod.snd (Except.ok.inj hjump)).symm⟩

theorem rtsBehavior_of_ok (h : pull16 s = .ok (w, t)) :
    rtsBehavior s = .ok ((), t.setPc (w + 1)) := by
  rw [rtsBehavior, Op.bind_of_ok h]
  rfl

end

/-- Settles O35: each primitive from its access, and the round trip of a word. -/
theorem stackPushAndPull : Obligations.StackPushAndPull := by
  refine ⟨stackAddress_toNat, fun _ _ _ => push8_of_ok, fun _ _ _ h => h,
    fun _ _ _ _ => push16_of_ok, fun _ _ _ _ _ => pull16_of_ok,
    fun _ _ _ => ⟨push8_of_error, fun h => h, Op.bind_of_error, fun _ => Op.bind_of_error⟩,
    fun _ _ _ => ⟨fun _ => push16_of_error_low, fun _ => pull16_of_error_high⟩,
    fun s w k k' hwf h h' hk => ⟨_, push16_of_slots h.2 h'.2 w, sub_one_sub_one _, ?_⟩⟩
  exact pull16_of_pushed hwf h h' hk rfl rfl rfl

/-- Settles O36: the push of A, and of P with Break and Unused set. -/
theorem pushInstructions : Obligations.PushInstructions :=
  ⟨⟨tableSays _, tableSays _⟩, fun _ => ⟨fun _ h => complete_of_ok (op := phaBehavior) h,
    fun _ h => complete_of_ok (op := phpBehavior) h, fun _ hk =>
      ⟨complete_of_ok (op := phaBehavior) (push8_of_slot hk _),
        complete_of_ok (op := phpBehavior) (push8_of_slot hk _)⟩⟩⟩

/-- Settles O37: the pulled byte to A with its Z and N, or to P but for bits 4 and 5. -/
theorem pullInstructions : Obligations.PullInstructions := by
  have pull : ∀ (s t : State) (v : Byte), pull8 s = .ok (v, t) →
      exec .pla s = .next ((t.setA v).setZN v) ∧ exec .plp s = .next (t.setP (restoredStatus v t.p)) :=
    fun _ _ _ h => ⟨complete_of_ok (op := plaBehavior) (by rw [plaBehavior, Op.bind_of_ok h]; rfl),
      complete_of_ok (pullStatus_of_ok h)⟩
  exact ⟨⟨tableSays _, tableSays _⟩, pull, fun s v h => pull s _ v (pull8_of_peek h)⟩

/-- Settles O38: the push before the jump, the pull with 1 added, and RTS on what JSR pushed. -/
theorem subroutineCallAndReturn : Obligations.SubroutineCallAndReturn := by
  have call : ∀ (s t : State) (w : Word),
      push16 (s.pc - 1) { s with events := { s.events with crossed := false } } = .ok ((), t) →
      exec (.jsr w) s = .next { t with pc := w } := fun s t w h =>
    exec_of_resolved (i := .jsr w) rfl (locate_of_ok (m := .absolute w) rfl) rfl rfl
      (jsrBehavior_of_ok h w)
  have ret : ∀ (s t : State) (w : Word), pull16 s = .ok (w, t) →
      exec .rts s = .next { t with pc := w + 1 } := fun s t w h => complete_of_ok (rtsBehavior_of_ok h)
  refine ⟨fun _ => tableSays _, tableSays _, call, ret, fun s w k k' hwf h h' hk => ?_⟩
  have hcall := call s _ w
    (push16_of_slots (s := { s with events := { s.events with crossed := false } }) h.2 h'.2 _)
  refine ⟨_, _, hcall, rfl, sub_one_sub_one _, rfl, rfl, rfl, rfl, rfl,
    ret _ _ _ (pull16_of_pushed hwf h h' hk rfl rfl rfl), ?_, rfl⟩
  exact BitVec.sub_add_cancel _ _

/-- Settles O39: BRK is the exception entry of R276. -/
theorem brkTakesTheSoftwareInterrupt : Obligations.BrkTakesTheSoftwareInterrupt := by
  refine ⟨tableSays _, fun s s1 s2 s3 w h1 h2 h3 => complete_of_ok (op := brkBehavior)
      (enterException_of_ok (copy := pushedByInstruction) h1 h2 h3),
    fun s k1 k2 k3 lo hi m h1 h2 h3 hm hlo hhi => complete_of_ok (op := brkBehavior) ?_⟩
  have henter := enterException_of_slots (copy := pushedByInstruction) (returnPc := s.pc + 1)
    (vector := 0xFFFE#16) h1 h2 (by rwa [sub_one_sub_one]) hm hlo hhi
  rw [sub_one_thrice] at henter
  exact henter

/-- Settles O40: RTI is the exception return of R277. -/
theorem rtiRestoresStatusAndPc : Obligations.RtiRestoresStatusAndPc :=
  ⟨tableSays _, fun _ _ _ _ _ h1 h2 => complete_of_ok (returnFromException_of_ok h1 h2),
    fun _ _ _ _ h1 h2 h3 => complete_of_ok (returnFromException_of_peek h1 h2 h3)⟩

/-! ### The frame of the stack instructions -/

/-- The stack pointers whose slots a stack instruction writes to, from SP. -/
def pushedAt (m : Mnemonic) (sp : Byte) : List Byte :=
  if m ∈ [Mnemonic.pha, .php] then [sp] else
    if m = .jsr then [sp, sp - 1] else if m = .brk then [sp, sp - 1, sp - 2] else []

/-- Without a push memory is as it was. -/
theorem Pushed.eq_of_nil {s : State} {sps : List Byte} {m : Memory} (h : Pushed s sps m)
    (hs : sps = []) : m = s.mem := by
  cases h with
  | none => rfl
  | store _ _ _ => simp at hs
  | skip _ _ => simp at hs

/-- One more word push on a memory that earlier pushes left. -/
theorem Pushed.push16 {s u t : State} {sps : List Byte} {w : Word} (h : Pushed s sps u.mem)
    (hc : u.config = s.config) (hp : s.mem.plain = true) (hu : push16 w u = .ok ((), t)) :
    ∃ m, t = (u.setMem m).setSp (u.sp - 1 - 1) ∧ Pushed s (sps ++ [u.sp] ++ [u.sp - 1]) m := by
  obtain ⟨_, v, h1, h2⟩ := Op.bind_ok_iff.1 hu
  obtain ⟨m, rfl, hm⟩ := h.push8 hc hp h1
  obtain ⟨m', rfl, hm'⟩ := Pushed.push8 (u := (u.setMem m).setSp (u.sp - 1)) hm hc hp h2
  exact ⟨m', rfl, hm'⟩

/-- The stack instructions. -/
theorem stackInstr_cases {i : Instr}
    (hm : i.mnemonic ∈ [Mnemonic.pha, .php, .jsr, .brk, .pla, .plp, .rts, .rti]) :
    i = .pha ∨ i = .php ∨ (∃ w, i = .jsr w) ∨ i = .brk ∨ i = .pla ∨ i = .plp ∨ i = .rts ∨ i = .rti := by
  cases i <;> simp [Instr.mnemonic] at hm ⊢

/-- Without device hooks a stack instruction stores at most the bytes of its slots. -/
theorem exec_pushed {i : Instr} {s t : State}
    (hm : i.mnemonic ∈ [Mnemonic.pha, .php, .jsr, .brk, .pla, .plp, .rts, .rti])
    (hp : s.mem.plain = true) (h : exec i s = .next t) : Pushed s (pushedAt i.mnemonic s.sp) t.mem := by
  rcases stackInstr_cases hm with rfl | rfl | ⟨w, rfl⟩ | rfl | rfl | rfl | rfl | rfl
  · obtain ⟨m, rfl, hpushed⟩ := Pushed.none.push8 rfl hp (complete_eq_next.1 h)
    exact hpushed
  · obtain ⟨m, rfl, hpushed⟩ := Pushed.none.push8 rfl hp (complete_eq_next.1 h)
    exact hpushed
  · obtain ⟨addr, s1, h1, hop⟩ := exec_address_next (i := .jsr w) rfl rfl h
    obtain ⟨e, rfl⟩ := locate_plain hp h1
    obtain ⟨u, hpush, rfl⟩ := jsrBehavior_eq hop
    obtain ⟨m, rfl, hpushed⟩ := Pushed.push16 (s := s) (u := s.setEvents e) .none rfl hp hpush
    exact hpushed
  · obtain ⟨m, w, rfl, hpushed⟩ := enterException_plain hp (complete_eq_next.1 h)
    rwa [sub_one_sub_one] at hpushed
  · obtain ⟨v, u, hpull, hload⟩ := Op.bind_ok_iff.1 (complete_eq_next.1 h)
    obtain ⟨rfl, -⟩ := pull8_plain hp hpull
    obtain rfl := congrArg Prod.snd (Except.ok.inj hload)
    exact .none
  · obtain ⟨b, rfl⟩ := pullStatus_plain hp (complete_eq_next.1 h)
    exact .none
  · obtain ⟨w, u, hpull, hjump⟩ := Op.bind_ok_iff.1 (complete_eq_next.1 h)
    obtain rfl := pull16_plain hp hpull
    obtain rfl := congrArg Prod.snd (Except.ok.inj hjump)
    exact .none
  · obtain ⟨b, w, rfl⟩ := returnFromException_plain hp (complete_eq_next.1 h)
    exact .none

/-- Settles O41: the slots written, and the frame of the registers and flags. -/
theorem stackInstructionsFrame : Obligations.StackInstructionsFrame := by
  intro i s t hm hp hwf h
  have hf := exec_framed h
  have hpushed := exec_pushed hm hp h
  obtain ⟨ha, hx, hy, hpc⟩ := (by decide :
    ∀ m ∈ [Mnemonic.pha, .php, .jsr, .brk, .pla, .plp, .rts, .rti],
      (m ≠ .pla → ¬(m ∈ writersOfA ∨ isShift m = true)) ∧ m ∉ [Mnemonic.ldx, .tax, .tsx, .inx, .dex] ∧
      m ∉ [Mnemonic.ldy, .tay, .iny, .dey] ∧ (m ∈ [Mnemonic.pha, .php, .pla, .plp] →
        ¬(m ∈ [Mnemonic.jmp, .jsr, .rts, .rti, .brk] ∨ isBranch m = true))) _ hm
  have hpeek : ∀ b : Word, (∀ sp ∈ pushedAt i.mnemonic s.sp, ∀ k,
      s.writeSlot (stackAddress sp) = some (.byte k) → s.readSlot b ≠ some (.byte k)) →
      t.peek b = s.peek b := fun b hb =>
    (State.peek_congr (s := s.setMem t.mem) (t := t) rfl hf.loop.1 b).trans (hpushed.peek hwf b hb)
  have hpull : i.mnemonic ∈ [Mnemonic.pla, .plp, .rts, .rti] → pushedAt i.mnemonic s.sp = [] := by
    intro h
    simp only [List.mem_cons, List.not_mem_nil, or_false] at h
    rcases h with h | h | h | h <;> rw [h] <;> rfl
  refine ⟨exec_sameButProgram hp h, fun h => hf.a fun h' => ha h (h'.imp_right And.left), hf.x hx,
    hf.y hy, fun h => status_ext fun f => hf.flags_of_mem (fs := []) (by decide) h f (by simp),
    fun h => hf.flags_of_mem (ms := [.pla]) (by decide) (by simp [h]),
    fun h => hf.flags_of_mem (ms := [.brk]) (by decide) (by simp [h]),
    hf.flags_of_mem (by decide), fun h => hf.pc (hpc h), fun h => ?_, hpeek⟩
  rw [hpull h] at hpushed hpeek
  exact ⟨hpushed.eq_of_nil rfl, fun b => hpeek b (by simp)⟩

end Sys2Proof.Machine
end

/-! ## Faults (40_step_addressing_flags.md R121, R123) -/

section
namespace Sys2Proof.Machine

section
variable {s s1 s2 t : State} {f : Fault} {m : Mnemonic} {addr : Word} {v b : Byte}

/-- A whole operation that faults. -/
theorem complete_of_error {op : Op Unit} (h : op s = .error f) : complete op s = .fault f := by
  rw [complete, h]

/-- Shape (c) whose accesses at the resolved address fault. -/
theorem exec_fault_of_resolved {i : Instr} {address : Op Word}
    (hv : addressOf i.operand = some address) (h : address s = .ok (addr, s1)) (hm : i.mnemonic = m)
    (hr : readsByte m = false) (hf : addressOp m addr s1 = .error f) : exec i s = .fault f := by
  subst hm
  rw [exec_eq_address hr hv]
  exact complete_of_error (by rw [Op.bind_of_ok h, hf])

/-- The mnemonics that read, modify and write memory end with a fault of the read. -/
theorem addressOp_of_read_error (hm : m ∈ [Mnemonic.inc, .dec, .asl, .lsr, .rol, .ror])
    (h : memRead addr s = .error f) : addressOp m addr s = .error f := by
  simp only [List.mem_cons, List.not_mem_nil, or_false] at hm
  rcases hm with rfl | rfl | rfl | rfl | rfl | rfl <;> exact Op.bind_of_error h

/-- INC and DEC end with a fault of the write. -/
theorem modifyMemory_of_write_error {g : Byte → Byte} (hread : memRead addr s = .ok (v, t))
    (h : memWrite addr (g v) t = .error f) : modifyMemory g addr s = .error f := by
  rw [modifyMemory, Op.bind_of_ok hread, Op.bind_of_error h]

/-- So does a shift on memory. -/
theorem shiftMemory_of_write_error {g : Byte → Bool → ShiftResult}
    (hread : memRead addr s = .ok (v, t))
    (h : memWrite addr (g v (t.flag .c)).value t = .error f) : shiftMemory g addr s = .error f := by
  rw [shiftMemory, Op.bind_of_ok hread, Op.get_bind]
  exact Op.bind_of_error h

/-! ### The fetch -/

/-- A fetch that faults ends the step. -/
theorem step_of_fetch_error (hcall : s.inCall = true) (hbegin : beginIteration s = .ok ((), s1))
    (h : fetchInstruction s1 = .error f) : step s = .fault f := by
  simp only [step, hcall, if_true, iteration, hbegin, h]

/-- The step after a fetch that answers. -/
theorem step_of_fetched {found : Fetched} (hcall : s.inCall = true)
    (hbegin : beginIteration s = .ok ((), s1)) (h : fetchInstruction s1 = .ok (found, s2)) :
    step s = runFetched s1.pc found s2 := by
  simp only [step, hcall, if_true, iteration, hbegin, h]

theorem fetchByte_of_ok (h : memRead s.pc s = .ok (b, t)) :
    fetchByte s = .ok (b, t.setPc (t.pc + 1)) := by
  rw [fetchByte, Op.get_bind, Op.bind_of_ok h]
  rfl

theorem fetchByte_of_error (h : memRead s.pc s = .error f) : fetchByte s = .error f := by
  rw [fetchByte, Op.get_bind, Op.bind_of_error h]

theorem fetchOperand_of_error_first {mode : Mode} (hsize : 2 ≤ mode.size)
    (h : fetchByte s = .error f) : fetchOperand mode s = .error f := by
  cases mode with
  | implied | accumulator => exact absurd hsize (by decide)
  | _ => exact Op.bind_of_error h

theorem fetchWordWith_of_error {g : Word → Operand} (h1 : fetchByte s = .ok (b, s1))
    (h2 : fetchByte s1 = .error f) : fetchWordWith g s = .error f := by
  rw [fetchWordWith, Op.bind_of_ok h1, Op.bind_of_error h2]

theorem fetchOperand_of_error_second {mode : Mode} (hsize : mode.size = 3)
    (h1 : fetchByte s = .ok (b, s1)) (h2 : fetchByte s1 = .error f) :
    fetchOperand mode s = .error f := by
  cases mode with
  | absolute | absoluteX | absoluteY | indirect =>
    rw [fetchOperand]
    exact fetchWordWith_of_error h1 h2
  | _ => exact absurd hsize (by decide)

theorem fetchInstruction_of_operand_error {row : TableRow} (h1 : fetchByte s = .ok (b, s1))
    (hrow : findRow s1.config.table b = some row) (h2 : fetchOperand row.mode s1 = .error f) :
    fetchInstruction s = .error f := by
  rw [fetchInstruction, Op.bind_of_ok h1, Op.get_bind, hrow]
  exact Op.bind_of_error h2

end

/-- Settles O43: each access in the place its instruction, or the fetch, performs it. -/
theorem faultingAccessEndsTheInstruction : Obligations.FaultingAccessEndsTheInstruction := by
  have notByte : ∀ m ∈ [Mnemonic.sta, .stx, .sty, .inc, .dec, .asl, .lsr, .rol, .ror, .jmp, .jsr],
      readsByte m = false := by decide
  refine ⟨fun i s value f hm hv h => ?_, fun i s address f hm hv h => ?_,
    fun i s s1 address addr f hm hv h hread => ?_,
    fun i s s1 s2 address addr v r f hv h hread hr hwrite => ?_,
    fun i s s1 address addr r f hr hv h hwrite => ?_,
    fun s f => ⟨complete_of_error (op := phaBehavior), complete_of_error (op := phpBehavior),
      fun h => ⟨complete_of_error (Op.bind_of_error h), complete_of_error (Op.bind_of_error h),
        complete_of_error (Op.bind_of_error (Op.bind_of_error h))⟩,
      fun h => complete_of_error (Op.bind_of_error h), fun w h => ?_,
      fun h => complete_of_error (op := brkBehavior) (enterException_of_error h)⟩,
    fun s s1 f h1 => ⟨fun h2 => complete_of_error (op := brkBehavior)
        (enterException_of_error_status (copy := pushedByInstruction) h1 h2),
      fun s2 h2 h3 => complete_of_error (op := brkBehavior)
        (enterException_of_error_vector (copy := pushedByInstruction) h1 h2 h3)⟩,
    fun s s1 b f h1 h2 => complete_of_error ?_, fun s s1 hcall hbegin => ?_⟩
  · rw [exec_eq_value (List.contains_iff_mem.2 hm) hv]
    exact complete_of_error (Op.bind_of_error h)
  · rw [exec_eq_address (notByte _ hm) hv]
    exact complete_of_error (Op.bind_of_error h)
  · have hr := (by decide : ∀ m ∈ [Mnemonic.inc, .dec, .asl, .lsr, .rol, .ror], readsByte m = false) _ hm
    exact exec_fault_of_resolved hv h rfl hr (addressOp_of_read_error hm hread)
  · rcases hr with ⟨hm, hr⟩ | ⟨hm, hr⟩ | ⟨hm, rfl⟩ | ⟨hm, rfl⟩ | ⟨hm, rfl⟩ | ⟨hm, rfl⟩
    · obtain rfl := eq_add_one_of_toNat hr
      exact exec_fault_of_resolved hv h hm rfl
        (modifyMemory_of_write_error (g := fun v => v + 1) hread hwrite)
    · obtain rfl := eq_sub_one_of_toNat hr
      exact exec_fault_of_resolved hv h hm rfl
        (modifyMemory_of_write_error (g := fun v => v - 1) hread hwrite)
    · exact exec_fault_of_resolved hv h hm rfl (shiftMemory_of_write_error hread hwrite)
    · exact exec_fault_of_resolved hv h hm rfl (shiftMemory_of_write_error hread hwrite)
    · exact exec_fault_of_resolved hv h hm rfl (shiftMemory_of_write_error hread hwrite)
    · exact exec_fault_of_resolved hv h hm rfl (shiftMemory_of_write_error hread hwrite)
  · rcases hr with ⟨hm, rfl⟩ | ⟨hm, rfl⟩ | ⟨hm, rfl⟩
    · exact exec_fault_of_resolved hv h hm rfl hwrite
    · exact exec_fault_of_resolved hv h hm rfl hwrite
    · exact exec_fault_of_resolved hv h hm rfl hwrite
  · exact exec_fault_of_resolved (i := .jsr w) rfl (locate_of_ok (m := .absolute w) rfl) rfl rfl
      (jsrBehavior_of_error h w)
  · rw [returnFromException, Op.bind_of_ok (pullStatus_of_ok h1)]
    exact Op.bind_of_error h2
  · have opcodeError : ∀ f, memRead s1.pc s1 = .error f → step s = .fault f := fun f h =>
      step_of_fetch_error hcall hbegin (Op.bind_of_error (fetchByte_of_error h))
    refine ⟨fun h => opcodeError _ (readWith_of_none h), opcodeError, fun op s2 row hop hrow => ?_⟩
    have operandError : ∀ f, fetchOperand row.mode (s2.setPc (s2.pc + 1)) = .error f →
        step s = .fault f := fun f h =>
      step_of_fetch_error hcall hbegin (fetchInstruction_of_operand_error (fetchByte_of_ok hop) hrow h)
    exact ⟨fun f hsize h => operandError f (fetchOperand_of_error_first hsize (fetchByte_of_error h)),
      fun lo s3 f hsize hlo h => operandError f (fetchOperand_of_error_second hsize
        (fetchByte_of_ok (s := s2.setPc (s2.pc + 1)) hlo) (fetchByte_of_error h))⟩

end Sys2Proof.Machine
end

/-! ## Interrupts (60_exceptions.md R320 to R326) -/

section
namespace Sys2Proof.Machine

section
variable {s s1 s2 s3 t : State} {vector w : Word} {f : Fault}

/-- What exception entry leaves for the service to count in. -/
def SameCounters (s t : State) : Prop :=
  t.config = s.config ∧ t.call = s.call ∧ t.lifetime = s.lifetime

theorem SameCounters.composable : Composable SameCounters where
  refl _ := ⟨rfl, rfl, rfl⟩
  trans _ _ _ h1 h2 := by
    obtain ⟨c1, k1, l1⟩ := h1
    obtain ⟨c2, k2, l2⟩ := h2
    exact ⟨c2.trans c1, k2.trans k1, l2.trans l1⟩

theorem SameButHooks.counters (h : SameButHooks s t) : SameCounters s t := by
  unfold SameButHooks at h
  rw [h]
  exact ⟨rfl, rfl, rfl⟩

theorem enterException_sameCounters (returnPc : Word) (copy : Byte → Byte) (vector : Word) :
    Op.Keeps SameCounters (enterException returnPc copy vector) :=
  enterException_keeps SameCounters.composable
    (fun a s v t h => (memRead_sameButHooks a s v t h).counters)
    (fun a v s u t h => (memWrite_sameButHooks a v s u t h).counters) (fun _ _ => ⟨rfl, rfl, rfl⟩)
    (fun _ _ => ⟨rfl, rfl, rfl⟩) (fun _ _ => ⟨rfl, rfl, rfl⟩) returnPc copy vector

/-- The service is the entry and INT_CYCLES in both counters. -/
theorem serviceInterrupt_of_enter (h : enterException s.pc pushedByInterrupt vector s = .ok ((), t)) :
    serviceInterrupt vector s = .ok ((), { t with
      call := s.call.addCycles s.config.intCycles
      lifetime := s.lifetime.addCycles s.config.intCycles }) := by
  obtain ⟨hconfig, hcall, hlifetime⟩ := enterException_sameCounters _ _ _ _ _ _ h
  rw [serviceInterrupt, Op.get_bind, Op.bind_of_ok h, ← hconfig, ← hcall, ← hlifetime]
  rfl

theorem serviceInterrupt_of_error (h : enterException s.pc pushedByInterrupt vector s = .error f) :
    serviceInterrupt vector s = .error f := by
  rw [serviceInterrupt, Op.get_bind, Op.bind_of_error h]

/-- The service on three backing bytes (R322). -/
theorem serviceInterrupt_of_slots {k1 k2 k3 : Nat} {lo hi : Byte} {m : Memory}
    (h1 : s.writeSlot (stackAddress s.sp) = some (.byte k1))
    (h2 : s.writeSlot (stackAddress (s.sp - 1)) = some (.byte k2))
    (h3 : s.writeSlot (stackAddress (s.sp - 2)) = some (.byte k3))
    (hm : m = ((s.mem.store k1 (highByte s.pc)).store k2 (lowByte s.pc)).store k3
      (pushedByInterrupt s.p))
    (hlo : (s.setMem m).peek vector = some lo) (hhi : (s.setMem m).peek (vector + 1) = some hi) :
    serviceInterrupt vector s = .ok ((), { s with
      mem := m, sp := s.sp - 3, p := s.p ||| 0x04#8, pc := wordOf hi lo
      call := s.call.addCycles s.config.intCycles
      lifetime := s.lifetime.addCycles s.config.intCycles }) := by
  have henter := enterException_of_slots h1 h2 (by rwa [sub_one_sub_one]) hm hlo hhi
  rw [sub_one_thrice] at henter
  exact serviceInterrupt_of_enter henter

end

/-- Settles O49: the service is exception entry and its two counts. -/
theorem interruptEntry : Obligations.InterruptEntry :=
  ⟨fun _ _ _ _ _ _ _ _ h1 h2 h3 hm hlo hhi => serviceInterrupt_of_slots h1 h2 h3 hm hlo hhi,
    fun _ _ _ _ _ _ h1 h2 h3 =>
      serviceInterrupt_of_enter (enterException_of_ok (copy := pushedByInterrupt) h1 h2 h3),
    fun _ _ _ => ⟨fun h => serviceInterrupt_of_error (enterException_of_error h), fun _ h1 =>
      ⟨fun h2 => serviceInterrupt_of_error
          (enterException_of_error_status (copy := pushedByInterrupt) h1 h2),
        fun _ h2 h3 => serviceInterrupt_of_error
          (enterException_of_error_vector (copy := pushedByInterrupt) h1 h2 h3)⟩⟩⟩

/-- With an NMI source the poll is its service (R320, R321). -/
theorem poll_nmi {s : State} (h : s.nmi ≠ []) :
    poll s = (serviceInterrupt nmiVector >>= fun _ => modify acknowledgeNmi) s := by
  rw [poll, Op.get_bind, if_pos (s.nmiLine_iff.2 h)]

/-- With an IRQ source only, and I clear, it is that one's (R320, R323). -/
theorem poll_irq {s : State} (hn : s.nmi = []) (hi : s.irq ≠ []) (hf : s.flag .i = false) :
    poll s = (serviceInterrupt irqVector >>= fun _ => modify acknowledgeIrq) s := by
  have hirq : (s.irqLine && !s.flag .i) = true := by rw [s.irqLine_iff.2 hi, hf]; rfl
  rw [poll, Op.get_bind, if_neg (by rw [s.nmiLine_iff]; exact not_not_intro hn), if_pos hirq]

/-- Settles O50: the three cases of the poll. -/
theorem pollServicesAtMostOneInterrupt : Obligations.PollServicesAtMostOneInterrupt := by
  refine fun s => ⟨fun hn t h => ?_, fun hn hi hf t h => ?_, fun hn h => poll_quiet ⟨hn, h⟩,
    fun f => ⟨fun hn h => ?_, fun hn hi hf h => ?_⟩⟩
  · have hpoll : poll s = .ok ((), acknowledgeNmi t) := (poll_nmi hn).trans (Op.bind_of_ok h)
    rw [hpoll, acknowledgeNmi]
    exact ⟨fun hack => by rw [hack], fun hack => by rw [hack]⟩
  · exact (poll_irq hn hi hf).trans (Op.bind_of_ok h)
  · exact (poll_nmi hn).trans (Op.bind_of_error h)
  · exact (poll_irq hn hi hf).trans (Op.bind_of_error h)

/-- Three distinct RAM bytes stored in turn read as stored. -/
theorem State.peek_store_triple {s : State} {a b c : Word} {k1 k2 k3 : Nat} (hwf : s.mem.wf = true)
    (h1 : s.RamAt a k1) (h2 : s.RamAt b k2) (h3 : s.RamAt c k3) (h12 : k1 ≠ k2) (h13 : k1 ≠ k3)
    (h23 : k2 ≠ k3) (v1 v2 v3 : Byte) :
    (s.setMem (((s.mem.store k1 v1).store k2 v2).store k3 v3)).peek a = some v1 ∧
      (s.setMem (((s.mem.store k1 v1).store k2 v2).store k3 v3)).peek b = some v2 ∧
      (s.setMem (((s.mem.store k1 v1).store k2 v2).store k3 v3)).peek c = some v3 := by
  obtain ⟨ha, hb⟩ := State.peek_store_pair hwf h1 h2 h12 v1 v2
  have hwf' : (s.setMem ((s.mem.store k1 v1).store k2 v2)).mem.wf = true :=
    Memory.wf_store (Memory.wf_store hwf k1 v1) k2 v2
  have ram : ∀ {a k}, s.RamAt a k → (s.setMem ((s.mem.store k1 v1).store k2 v2)).RamAt a k :=
    fun h => (h.store k1 v1).store k2 v2
  exact ⟨((ram h1).peek_store_other hwf' h13 v3).trans ha,
    ((ram h2).peek_store_other hwf' h23 v3).trans hb, (ram h3).peek_store_same hwf' v3⟩

/-- The status and the word that three RAM bytes below SP hold are pulled with SP restored (R277). -/
theorem returnFromException_of_pushed {s t : State} {k1 k2 k3 : Nat} {w : Word} {b : Byte}
    (hwf : s.mem.wf = true) (h1 : s.RamAt (stackAddress s.sp) k1)
    (h2 : s.RamAt (stackAddress (s.sp - 1)) k2) (h3 : s.RamAt (stackAddress (s.sp - 2)) k3)
    (h12 : k1 ≠ k2) (h13 : k1 ≠ k3) (h23 : k2 ≠ k3)
    (hmem : t.mem = ((s.mem.store k1 (highByte w)).store k2 (lowByte w)).store k3 b)
    (hc : t.config = s.config) (hsp : t.sp = s.sp - 3) :
    returnFromException t =
      .ok ((), ((t.setSp s.sp).setP (restoredStatus b t.p)).setPc w) := by
  obtain ⟨hhigh, hlow, hstatus⟩ :=
    State.peek_store_triple hwf h1 h2 h3 h12 h13 h23 (highByte w) (lowByte w) b
  have hpeek := State.peek_congr (t := t)
    (s := s.setMem (((s.mem.store k1 (highByte w)).store k2 (lowByte w)).store k3 b)) hmem hc
  rw [← hpeek] at hhigh hlow hstatus
  have hsp1 : t.sp + 1 = s.sp - 2 := by rw [hsp]; bv_omega
  have hsp2 : t.sp + 2 = s.sp - 1 := by rw [hsp]; bv_omega
  have hsp3 : t.sp + 3 = s.sp := by rw [hsp]; bv_omega
  rw [returnFromException_of_peek (b := b) (lo := lowByte w) (hi := highByte w) (by rw [hsp1, hstatus])
    (by rw [hsp2, hlow]) (by rw [hsp3, hhigh]), hsp3, wordOf_high_low]

/-- What RTI restores of the copy an interrupt pushed is the status before it (D9, D10). -/
theorem restoredStatus_pushedByInterrupt (p : Byte) :
    restoredStatus (pushedByInterrupt p) (p ||| 0x04#8) = p := by
  refine status_ext fun f => ?_
  cases f <;> simp [getFlag, Flag.bit, restoredStatus, pushedByInterrupt]

/-- Settles O51: RTI pulls the three bytes the service pushed. -/
theorem rtiResumesWhereTheInterruptWasTaken : Obligations.RtiResumesWhereTheInterruptWasTaken := by
  intro s t vector k1 k2 k3 hwf h1 h2 h3 h12 h13 h23 hlo hhi h
  obtain ⟨jlo, hlo⟩ := hlo
  obtain ⟨jhi, hhi⟩ := hhi
  rw [serviceInterrupt_of_slots h1.2 h2.2 h3.2 rfl (State.peek_of_readSlot (by simpa using hlo))
    (State.peek_of_readSlot (by simpa using hhi))] at h
  obtain rfl := congrArg Prod.snd (Except.ok.inj h)
  refine ⟨by simp [State.flag, getFlag, Flag.bit], _, complete_of_ok
    (returnFromException_of_pushed hwf h1 h2 h3 h12 h13 h23 rfl rfl rfl), rfl, rfl, ?_, rfl, rfl, rfl⟩
  exact restoredStatus_pushedByInterrupt s.p

end Sys2Proof.Machine
end

/-! ## The items of an iteration (60_exceptions.md R320, R330, R341) -/

section
namespace Sys2Proof.Machine

section
variable {s s1 s2 t t1 t2 t3 : State} {f : Fault} {place : PollPoint} {pc0 : Word} {r : StepResult}
  {call : HookCall} {n : Nat}

/-! ### Observers and the poll -/

theorem fireObservers_of_ok {b : Byte} (h : invokeHook call s = .ok (b, t)) :
    fireObservers call (n + 1) s = fireObservers call n t := Op.bind_of_ok h

theorem fireObservers_of_error (h : invokeHook call s = .error f) :
    fireObservers call (n + 1) s = .error f := Op.bind_of_error h

/-- At the place POLL_POINT names, the poll (R320). -/
theorem pollAt_place (h : s.config.pollPoint = place) : pollAt place s = poll s := by
  rw [pollAt, Op.get_bind, if_pos h]

/-- At the other place, nothing. -/
theorem pollAt_other (h : s.config.pollPoint ≠ place) : pollAt place s = .ok ((), s) := by
  rw [pollAt, Op.get_bind, if_neg h]
  rfl

/-! ### Before the instruction (R330 items 1 and 2) -/

theorem beginIteration_of_ok (hpoll : pollAt .beforeStep s = .ok ((), s1))
    (hfire : fireObservers .beforeInstruction s1.observers.before s1 = .ok ((), s2)) :
    beginIteration s = .ok ((), s2.setEvents StepEvents.none) := by
  rw [beginIteration, Op.bind_of_ok hpoll, Op.get_bind, Op.bind_of_ok hfire]
  rfl

theorem beginIteration_of_observer_error (hpoll : pollAt .beforeStep s = .ok ((), s1))
    (hfire : fireObservers .beforeInstruction s1.observers.before s1 = .error f) :
    beginIteration s = .error f := by
  rw [beginIteration, Op.bind_of_ok hpoll, Op.get_bind, Op.bind_of_error hfire]

theorem beginIteration_of_poll_error (hpoll : pollAt .beforeStep s = .error f) :
    beginIteration s = .error f := Op.bind_of_error hpoll

theorem step_of_begin_error (hcall : s.inCall = true) (h : beginIteration s = .error f) :
    step s = .fault f := by
  simp only [step, hcall, if_true, iteration, h]

/-! ### After the instruction (R330 items 4 to 7) -/

/-- What the fold and the poll do before the observers of the step. -/
theorem concludeStep_of_poll (hpoll : pollAt .afterStep (foldResult pc0 r t) = .ok ((), t1)) :
    concludeStep pc0 r t = (fireObservers .afterInstruction t1.observers.after >>= fun _ =>
      reportUnknown pc0 r >>= fun _ => modify (evaluateStop pc0 r.opcode)) t1 := by
  rw [concludeStep, Op.modify_bind, Op.bind_of_ok hpoll, Op.get_bind]

theorem concludeStep_of_poll_error (hpoll : pollAt .afterStep (foldResult pc0 r t) = .error f) :
    concludeStep pc0 r t = .error f := by
  rw [concludeStep, Op.modify_bind, Op.bind_of_error hpoll]

theorem concludeStep_of_ok (hpoll : pollAt .afterStep (foldResult pc0 r t) = .ok ((), t1))
    (hfire : fireObservers .afterInstruction t1.observers.after t1 = .ok ((), t2))
    (hreport : reportUnknown pc0 r t2 = .ok ((), t3)) :
    concludeStep pc0 r t = .ok ((), evaluateStop pc0 r.opcode t3) := by
  rw [concludeStep_of_poll hpoll, Op.bind_of_ok hfire, Op.bind_of_ok hreport]
  rfl

theorem concludeStep_of_report_error (hpoll : pollAt .afterStep (foldResult pc0 r t) = .ok ((), t1))
    (hfire : fireObservers .afterInstruction t1.observers.after t1 = .ok ((), t2))
    (hreport : reportUnknown pc0 r t2 = .error f) : concludeStep pc0 r t = .error f := by
  rw [concludeStep_of_poll hpoll, Op.bind_of_ok hfire, Op.bind_of_error hreport]

/-- An instruction of the table is no unknown opcode. -/
theorem reportUnknown_known (h : r.unknown = false) : reportUnknown pc0 r t = .ok ((), t) := by
  simp [reportUnknown, h]

/-- The observers of an unknown opcode, then the fatal policy (R302). -/
theorem reportUnknown_of_ok (h : r.unknown = true)
    (hfire : fireObservers (.unknownOpcode r.opcode) t.observers.unknown t = .ok ((), t1)) :
    reportUnknown pc0 r t = if t1.options.unknownInstructionIsFatal then
      .error (.unknownOpcode r.opcode pc0 t1) else .ok ((), t1) := by
  rw [reportUnknown, if_pos h, Op.get_bind, Op.bind_of_ok hfire, Op.get_bind]
  split <;> rfl

theorem reportUnknown_of_error (h : r.unknown = true)
    (hfire : fireObservers (.unknownOpcode r.opcode) t.observers.unknown t = .error f) :
    reportUnknown pc0 r t = .error f := by
  rw [reportUnknown, if_pos h, Op.get_bind, Op.bind_of_error hfire]

end

/-- Settles O60: each item in its place. -/
theorem iterationPollsAndFiresObservers : Obligations.IterationPollsAndFiresObservers := by
  refine ⟨fun s s1 h => ?_, fun s f => ⟨fun hp h => beginIteration_of_poll_error
      ((pollAt_place hp).trans h), step_of_begin_error⟩, fun t t0 t1 pc0 r ht0 h => ?_,
    fun t pc0 r f hp h => concludeStep_of_poll_error
      ((pollAt_place (s := foldResult pc0 r t) hp).trans h),
    fun call n s => ⟨rfl, fun _ _ => fireObservers_of_ok, fun _ => fireObservers_of_error⟩⟩
  · have hpoll : pollAt .beforeStep s = .ok ((), s1) := by
      rcases h with ⟨hp, h⟩ | ⟨hp, rfl⟩
      · exact (pollAt_place hp).trans h
      · exact pollAt_other (by simp [hp])
    exact ⟨fun s2 => beginIteration_of_ok hpoll, fun f => beginIteration_of_observer_error hpoll⟩
  · subst ht0
    have hpoll : pollAt .afterStep (foldResult pc0 r t) = .ok ((), t1) := by
      rcases h with ⟨hp, h⟩ | ⟨hp, rfl⟩
      · exact (pollAt_place (s := foldResult pc0 r t) hp).trans h
      · exact pollAt_other (s := foldResult pc0 r t) fun e => by cases hp.symm.trans e
    refine ⟨fun f hfire => by rw [concludeStep_of_poll hpoll, Op.bind_of_error hfire],
      fun t2 hfire => ⟨fun hr => concludeStep_of_ok hpoll hfire (reportUnknown_known hr), fun hr =>
        ⟨fun f hunknown => concludeStep_of_report_error hpoll hfire
            (reportUnknown_of_error hr hunknown), fun t3 hunknown => ⟨fun hfatal => ?_, fun hfatal => ?_⟩⟩⟩⟩
    · exact concludeStep_of_report_error hpoll hfire
        (by rw [reportUnknown_of_ok hr hunknown, if_pos hfatal])
    · exact concludeStep_of_ok hpoll hfire
        (by rw [reportUnknown_of_ok hr hunknown, hfatal, if_neg Bool.false_ne_true])

end Sys2Proof.Machine
end

/-! ## The run loop (40_step_addressing_flags.md R120 to R122, 60_exceptions.md R330 to R336) -/

section
namespace Sys2Proof.Machine

open Laws.Encoding

section
variable {s t : State} {pc0 : Word} {r : StepResult}

/-! ### Quiet states -/

theorem fireObservers_before_quiet (h : s.NoObservers) (call : HookCall) :
    fireObservers call s.observers.before s = .ok ((), s) := by
  rw [show s.observers = _ from h]
  rfl

theorem fireObservers_after_quiet (h : s.NoObservers) (call : HookCall) :
    fireObservers call s.observers.after s = .ok ((), s) := by
  rw [show s.observers = _ from h]
  rfl

theorem fireObservers_unknown_quiet (h : s.NoObservers) (call : HookCall) :
    fireObservers call s.observers.unknown s = .ok ((), s) := by
  rw [show s.observers = _ from h]
  rfl

theorem beginIteration_quiet (hi : s.NoInterrupt) (ho : s.NoObservers) :
    beginIteration s = .ok ((), s.setEvents StepEvents.none) :=
  beginIteration_of_ok (pollAt_quiet hi _) (fireObservers_before_quiet ho _)

theorem concludeStep_quiet (hi : t.NoInterrupt) (ho : t.NoObservers) (hr : r.unknown = false) :
    concludeStep pc0 r t = .ok ((), evaluateStop pc0 r.opcode (foldResult pc0 r t)) :=
  concludeStep_of_ok (pollAt_quiet (hi.fold pc0 r) _)
    (fireObservers_after_quiet (s := foldResult pc0 r t) ho _) (reportUnknown_known hr)

/-- After an unknown opcode (R302, R334). -/
theorem concludeStep_unknown_quiet (hi : t.NoInterrupt) (ho : t.NoObservers) (hr : r.unknown = true) :
    concludeStep pc0 r t = if t.options.unknownInstructionIsFatal then
      .error (.unknownOpcode r.opcode pc0 (foldResult pc0 r t))
      else .ok ((), evaluateStop pc0 r.opcode (foldResult pc0 r t)) := by
  have hpoll := pollAt_quiet (hi.fold pc0 r) .afterStep
  have hfire := fireObservers_after_quiet (s := foldResult pc0 r t) ho .afterInstruction
  have hreport := reportUnknown_of_ok (pc0 := pc0) hr
    (fireObservers_unknown_quiet (s := foldResult pc0 r t) ho _)
  by_cases hfatal : t.options.unknownInstructionIsFatal = true
  · rw [if_pos hfatal]
    exact concludeStep_of_report_error hpoll hfire (hreport.trans (if_pos hfatal))
  · rw [if_neg hfatal]
    exact concludeStep_of_ok hpoll hfire (hreport.trans (if_neg hfatal))

/-! ### Dispatch -/

variable {row : TableRow} {o : Operand} {m : Mnemonic}

/-- A documented pair of mnemonic and mode runs its instruction (R123). -/
theorem perform_instr {i : Instr} (h : row.behavior = .documented i.mnemonic) (pc0 : Word) (s : State) :
    perform row pc0 i.operand s = exec i s := by
  simp only [perform, h, ofParts_parts]

/-- Any other pair runs the mnemonic's behavior on what the mode gives (R94). -/
theorem perform_behavior {act : Op Unit} (h : row.behavior = .documented m)
    (hno : ∀ i : Instr, ¬(i.mnemonic = m ∧ i.operand = o)) (hact : behavior m o = some act)
    (pc0 : Word) (s : State) : perform row pc0 o s = complete act s := by
  have hparts : Instr.ofParts m o = none :=
    Option.eq_none_iff_forall_not_mem.2 fun i hi => hno i (parts_of_ofParts hi)
  simp only [perform, h, hparts, hact]

end

/-- What the step makes of a dispatched row's result (R330 items 4 to 7). -/
def concludeRow (pc0 : Word) (op : Byte) (row : TableRow) : Result → Result
  | .next t => complete (concludeStep pc0 ⟨op, stepCycles t.config row t.events, false⟩) t
  | .fault f => .fault f
  | .refused r => .refused r

/-- The step on any row of any table (R94, R120): fetched with its operand bytes, and performed. -/
theorem step_of_row {s s1 s2 : State} {op : Byte} {row : TableRow} {o : Operand}
    (hcall : s.inCall = true) (hbegin : beginIteration s = .ok ((), s1))
    (hbytes : s1.BytesAt s1.pc (op :: o.bytes)) (hrow : findRow s1.config.table op = some row)
    (hmode : row.mode = o.mode) (hs2 : s2 = s1.setPc (s1.pc + BitVec.ofNat 16 row.mode.size)) :
    step s = concludeRow s1.pc op row (perform row s1.pc o s2) := by
  rw [hmode, ← length_bytes] at hs2
  subst hs2
  rw [step_of_fetched hcall hbegin (fetchInstruction_of_bytes hbytes hrow hmode), runFetched,
    ← findRow_opcode hrow]
  generalize perform row s1.pc o _ = result
  cases result <;> rfl

/-- Settles O52: the row of the opcode byte is fetched with its operand bytes, and performed. -/
theorem stepRunsTheDecodedInstruction : Obligations.StepRunsTheDecodedInstruction := by
  refine ⟨fun s s1 i bytes row hcall hbegin hbytes hdecode hwf hrow => ?_,
    fun s s1 op o row m hcall hbegin hbytes hrow hbeh hmode s2 hs2 result hresult => ?_,
    fun s => beginIteration_quiet, fun t pc0 r => concludeStep_quiet⟩
  · have hspelled : bytes = i.opcode :: i.operand.bytes := by
      rw [eq_encode_of_decode hdecode, List.append_nil, encode, operandBytes_eq]
    subst hspelled
    simp only [Instr.wellFormed, hrow, Bool.and_eq_true, beq_iff_eq] at hwf
    obtain ⟨hbeh, hmode⟩ := hwf
    have hsize : row.mode.size = (i.opcode :: i.operand.bytes).length := by
      rw [hmode, ← length_bytes, List.length_cons]
    rw [← hsize]
    refine (step_of_row hcall hbegin hbytes hrow hmode rfl).trans ?_
    rw [perform_instr hbeh]
    change concludeRow _ _ _ (exec i { s1 with pc := s1.pc + BitVec.ofNat 16 row.mode.size }) = _
    generalize exec i _ = result
    cases result <;> rfl
  · have hperform : perform row s1.pc o s2 = result := by
      rcases hresult with ⟨i, rfl, rfl, rfl⟩ | ⟨hno, act, hact, rfl⟩
      · exact perform_instr hbeh _ _
      · exact perform_behavior hbeh hno hact _ _
    refine (step_of_row hcall hbegin hbytes hrow hmode hs2).trans ?_
    rw [hperform]
    cases result <;> rfl

/-- The fetch of a byte outside the table (R122). -/
theorem fetchInstruction_unknown {s t : State} {b : Byte} (h : fetchByte s = .ok (b, t))
    (hrow : findRow t.config.table b = none) : fetchInstruction s = .ok (.unknown b, t) := by
  rw [fetchInstruction, Op.bind_of_ok h, Op.get_bind, hrow]
  rfl

/-- Settles O53: one byte fetched, one cycle folded, and the fatal policy. -/
theorem unknownOpcodeIsCountedOrFatal : Obligations.UnknownOpcodeIsCountedOrFatal := by
  intro s t op hcall hi ho hop hrow ht
  have hfetch := fetchInstruction_unknown (fetchByte_of_peek (s := s.setEvents StepEvents.none) hop) hrow
  have hstep := step_of_fetched hcall (beginIteration_quiet hi ho) hfetch
  have hconclude := concludeStep_unknown_quiet (pc0 := s.pc) (r := ⟨op, 1, true⟩)
    (t := (s.setEvents StepEvents.none).setPc (s.pc + 1)) hi ho rfl
  have hfold : foldResult s.pc ⟨op, 1, true⟩ ((s.setEvents StepEvents.none).setPc (s.pc + 1)) = t :=
    ht.symm
  rw [hfold] at hconclude
  exact ⟨fun hf => hstep.trans (complete_of_error (hconclude.trans (if_pos hf))),
    fun hf => hstep.trans (complete_of_ok (hconclude.trans (if_neg (ne_true_of_eq_false hf))))⟩

/-- Settles O54: the fold field by field, and each row of R335 in the list of reasons. -/
theorem foldAndStopConditions : Obligations.FoldAndStopConditions := by
  refine ⟨fun s pc0 op n unknown => by cases unknown <;> rfl, fun s pc0 op held hheld => ?_⟩
  subst hheld
  refine ⟨by simp [stopConditions, Option.any_eq_true], by simp [stopConditions, Option.any_eq_true],
    by simp [stopConditions], by simp [stopConditions], by simp [stopConditions], by simp [stopConditions], fun h => ?_,
    fun h => ?_⟩
  · rw [evaluateStop, h]
  · unfold evaluateStop
    split
    · exact absurd ‹_› h
    · rfl

end Sys2Proof.Machine
end

/-! ## The host between calls (60_exceptions.md R340, R347, 20_memory.md R61) -/

section
namespace Sys2Proof.Machine

section
variable {s t u : State} {addr n : Nat} {a : Word} {b v : Byte} {bytes rest : List Byte} {f : Fault}

/-- An address of 16 bits is one of bulk access (R61). -/
theorem bulkAddress_toNat (a : Word) (kind : AccessKind) (s : State) :
    bulkAddress a.toNat kind s = .ok (a, s) := by
  simp [bulkAddress, a.isLt]

/-- Beyond them there is none (log 10). -/
theorem bulkAddress_beyond (h : 65536 ≤ addr) (kind : AccessKind) :
    bulkAddress addr kind s = .error (.invalidMemoryAccess addr kind s.pc s) := by
  simp [bulkAddress, Nat.not_lt.2 h]

theorem bulkRead_beyond (h : 65536 ≤ addr) :
    bulkRead addr (n + 1) s = .error (.invalidMemoryAccess addr .read s.pc s) :=
  Op.bind_of_error (bulkAddress_beyond h .read)

theorem bulkWrite_beyond (h : 65536 ≤ addr) :
    bulkWrite addr (v :: rest) s = .error (.invalidMemoryAccess addr .write s.pc s) :=
  Op.bind_of_error (bulkAddress_beyond h .write)

theorem bulkRead_of_error (h : memRead a s = .error f) : bulkRead a.toNat (n + 1) s = .error f := by
  rw [bulkRead, Op.bind_of_ok (bulkAddress_toNat a .read s), Op.bind_of_error h]

theorem bulkRead_of_ok (h : memRead a s = .ok (b, t))
    (hrest : bulkRead (a.toNat + 1) n t = .ok (bytes, u)) :
    bulkRead a.toNat (n + 1) s = .ok (b :: bytes, u) := by
  rw [bulkRead, Op.bind_of_ok (bulkAddress_toNat a .read s), Op.bind_of_ok h, Op.bind_of_ok hrest]
  rfl

theorem bulkRead_of_rest_error (h : memRead a s = .ok (b, t))
    (hrest : bulkRead (a.toNat + 1) n t = .error f) : bulkRead a.toNat (n + 1) s = .error f := by
  rw [bulkRead, Op.bind_of_ok (bulkAddress_toNat a .read s), Op.bind_of_ok h, Op.bind_of_error hrest]

theorem bulkWrite_of_ok (h : memWrite a v s = .ok ((), t)) :
    bulkWrite a.toNat (v :: rest) s = bulkWrite (a.toNat + 1) rest t := by
  rw [bulkWrite, Op.bind_of_ok (bulkAddress_toNat a .write s), Op.bind_of_ok h]

theorem bulkWrite_of_error (h : memWrite a v s = .error f) :
    bulkWrite a.toNat (v :: rest) s = .error f := by
  rw [bulkWrite, Op.bind_of_ok (bulkAddress_toNat a .write s), Op.bind_of_error h]

/-- As many bytes are read as asked for. -/
theorem bulkRead_length : ∀ {n addr : Nat} {s t : State} {bytes : List Byte},
    bulkRead addr n s = .ok (bytes, t) → bytes.length = n
  | 0, _, _, _, _, h => by
    obtain ⟨rfl, -⟩ := Prod.mk.inj (Except.ok.inj h)
    rfl
  | n + 1, addr, s, t, bytes, h => by
    obtain ⟨a, s1, -, h⟩ := Op.bind_ok_iff.1 h
    obtain ⟨b, s2, -, h⟩ := Op.bind_ok_iff.1 h
    obtain ⟨rest, s3, hrest, h⟩ := Op.bind_ok_iff.1 h
    obtain ⟨rfl, -⟩ := Prod.mk.inj (Except.ok.inj h)
    rw [List.length_cons, bulkRead_length hrest]

end

/-- Between calls the step is the host's turn (R347). -/
theorem step_idle {s : State} (h : s.inCall = false) : step s = hostTurn s := by
  rw [step, h]
  rfl

/-- Settles O55: the next pending operation, and what each operation is. -/
theorem hostActsBetweenCalls : Obligations.HostActsBetweenCalls := by
  refine ⟨fun s h => ⟨fun hq => ?_, fun op rest hq => ?_, fun options rest hq => ?_⟩,
    fun s w v => ⟨rfl, rfl, rfl, rfl, rfl, rfl, rfl, rfl, rfl, rfl, fun _ => rfl,
      fun _ _ => Op.bind_of_ok, fun _ _ => Op.bind_of_ok,
      fun _ => ⟨Op.bind_of_error, Op.bind_of_error⟩⟩,
    fun s t addr n bytes h => ⟨Op.bind_of_ok h, bulkRead_length h⟩,
    fun s addr n bytes => ⟨rfl, fun _ => Op.bind_of_error⟩,
    fun s addr n v rest => ⟨rfl, rfl, fun h => ⟨bulkRead_beyond h, bulkWrite_beyond h⟩,
      fun a ha => ?_⟩⟩
  · rw [step_idle h, hostTurn, hq]
  · rw [step_idle h, hostTurn, hq]
  · rw [step_idle h, hostTurn, hq]
    rfl
  · subst ha
    exact ⟨fun f => ⟨bulkRead_of_error, bulkWrite_of_error⟩, fun b t bytes u => bulkRead_of_ok,
      fun b t f => bulkRead_of_rest_error, fun t => bulkWrite_of_ok⟩

end Sys2Proof.Machine
end

/-! ## Reset (70_reset_and_hazards.md) -/

section
namespace Sys2Proof.Machine

section
variable {s t : State} {start : Option Word} {w : Word} {f : Fault}

/-- The registers RESET_STATE pins, at their pinned values (D11). -/
def State.pinned (s : State) : State :=
  { s with
    a := s.config.resetValues.a.getD s.a
    x := s.config.resetValues.x.getD s.x
    y := s.config.resetValues.y.getD s.y
    sp := s.config.resetValues.sp.getD s.sp
    p := s.config.resetValues.p.getD s.p }

theorem State.pinned_of_none (h : s.config.resetValues = ⟨none, none, none, none, none⟩) :
    s.pinned = s := by
  rw [State.pinned, h]
  rfl

/-- A reset is PC from its target, then the pinned registers (R370). -/
theorem resetMachine_of_ok (h : resetTarget start s = .ok (w, t)) :
    resetMachine start s = .ok ((), (t.setPc w).pinned) := by
  rw [resetMachine, Op.bind_of_ok h]
  rfl

theorem resetMachine_of_error (h : resetTarget start s = .error f) :
    resetMachine start s = .error f := Op.bind_of_error h

/-- What a reset that answers did. -/
theorem resetMachine_eq (h : resetMachine start s = .ok ((), t)) :
    ∃ w u, resetTarget start s = .ok (w, u) ∧ t = (u.setPc w).pinned := by
  obtain ⟨w, u, htarget, -⟩ := Op.bind_ok_iff.1 h
  exact ⟨w, u, htarget, congrArg Prod.snd (Except.ok.inj (h.symm.trans (resetMachine_of_ok htarget)))⟩

/-- Finding the target leaves the parameters. -/
theorem resetTarget_config (h : resetTarget start s = .ok (w, t)) : t.config = s.config := by
  cases start with
  | none =>
    exact (memReadWord_keeps SameCounters.composable
      (fun a s v t h => (memRead_sameButHooks a s v t h).counters) _ _ _ _ h).1
  | some target =>
    obtain ⟨-, rfl⟩ := Prod.mk.inj (Except.ok.inj h)
    rfl

end

/-- Settles O56: PC from the target, the pinned registers, and the fault of the vector read. -/
theorem resetLoadsThePc : Obligations.ResetLoadsThePc := by
  have unpinned : ∀ (s t : State) (start : Option Word) (w : Word),
      s.config.resetValues = ⟨none, none, none, none, none⟩ → resetTarget start s = .ok (w, t) →
      resetMachine start s = .ok ((), { t with pc := w }) := by
    intro s t start w hnone h
    rw [resetMachine_of_ok h, State.pinned_of_none (s := t.setPc w) (resetTarget_config h ▸ hnone)]
    rfl
  refine ⟨fun s t w hnone h => unpinned s t none w hnone h, fun s f h => resetMachine_of_error h,
    fun s start hnone => unpinned s s (some start) start hnone rfl, fun s t start h => ?_⟩
  obtain ⟨w, u, htarget, rfl⟩ := resetMachine_eq h
  rw [← resetTarget_config htarget]
  exact ⟨fun v hv => by simp [State.pinned, hv], fun v hv => by simp [State.pinned, hv],
    fun v hv => by simp [State.pinned, hv], fun v hv => by simp [State.pinned, hv],
    fun v hv => by simp [State.pinned, hv]⟩

/-! ### Registration and construction (30_encoding.md R94, 60_exceptions.md R304) -/

theorem findRow_eq_none_iff {table : List TableRow} {op : Byte} :
    findRow table op = none ↔ op ∉ table.map TableRow.opcode := by
  simp [findRow, List.find?_eq_none]

theorem registerOpcode_new {table : List TableRow} {row : TableRow}
    (h : findRow table row.opcode = none) : registerOpcode table row = .ok (table ++ [row]) := by
  rw [registerOpcode, h]

theorem registerOpcode_duplicate {table : List TableRow} {row : TableRow}
    (h : findRow table row.opcode ≠ none) : registerOpcode table row = .error .duplicateOpcode := by
  obtain ⟨found, hfound⟩ := Option.ne_none_iff_exists'.1 h
  rw [registerOpcode, hfound]

/-- Rows are registered in order exactly when no opcode byte occurs twice (R94). -/
theorem registerAll_eq : ∀ {table acc : List TableRow}, (acc.map TableRow.opcode).Nodup →
    registerAll acc table = if ((acc ++ table).map TableRow.opcode).Nodup then .ok (acc ++ table)
      else .error .duplicateOpcode
  | [], acc, hacc => by rw [List.append_nil, if_pos hacc, registerAll]
  | row :: rest, acc, hacc => by
    by_cases hnew : findRow acc row.opcode = none
    · have hacc' : ((acc ++ [row]).map TableRow.opcode).Nodup := by
        simpa [List.nodup_append, hacc] using findRow_eq_none_iff.1 hnew
      simp only [registerAll, registerOpcode_new hnew]
      rw [registerAll_eq hacc', List.append_assoc, List.singleton_append]
    · have hdup : ¬((acc ++ row :: rest).map TableRow.opcode).Nodup := by
        intro h
        rw [List.map_append, List.nodup_append] at h
        obtain ⟨-, -, hdisjoint⟩ := h
        exact hdisjoint _ (not_not.1 (mt findRow_eq_none_iff.2 hnew)) _ List.mem_cons_self rfl
      rw [if_neg hdup]
      simp only [registerAll, registerOpcode_duplicate hnew]

/-- The machine a construction makes (R51, R372). -/
def constructed (c : Config) (pc : Word) (sp a x y p : Byte) : State where
  config := c
  pc := pc
  sp := sp
  a := a
  x := x
  y := y
  p := p
  mem := ⟨[], [], [], 0⟩
  irq := []
  nmi := []
  call := ExecutionState.zero
  lifetime := ExecutionState.zero
  options := ExecutionOptions.none
  inCall := false
  stopReasons := []
  observers := ⟨0, 0, 0⟩
  events := StepEvents.none
  hostQueue := []
  hostBytes := []
  replies := []
  hookCalls := []
  freeCount := 0

/-- With sizes in range the table decides (log 34). -/
theorem construct_of_sizes {c : Config} (h1 : 1 ≤ c.memSize) (h2 : c.memSize ≤ 65536)
    (h3 : 1 ≤ c.numConfigs) (pc : Word) (sp a x y p : Byte) : construct c pc sp a x y p =
      if (c.table.map TableRow.opcode).Nodup then .ok (constructed c pc sp a x y p)
      else .error .duplicateOpcode := by
  rw [construct, if_neg (by omega), if_neg (by omega), if_neg (by omega),
    registerAll_eq (acc := []) List.nodup_nil, List.nil_append]
  by_cases h : (c.table.map TableRow.opcode).Nodup
  · rw [if_pos h, if_pos h]
    rfl
  · rw [if_neg h, if_neg h]

/-- The default table registers no opcode byte twice (R94). -/
theorem opcodes_nodup_default : (Config.default.table.map TableRow.opcode).Nodup := by
  by_contra hdup
  have h := (registerAll_eq (table := defaultTable) (acc := []) List.nodup_nil).trans (if_neg hdup)
  cases registerAll_default.symm.trans h

/-- The machine of log 1 with the platform of 20_memory.md R76 mapped (log 2). -/
def launched : State :=
  (constructed Config.default 0x0000#16 0xFF#8 0x00#8 0x00#8 0x00#8 0x00#8).setMem Memory.flatRam

theorem launched_mapRam : hostOperation (.act (.mapRam none 0 ⟨0, 65536⟩ 0 none))
    (constructed Config.default 0x0000#16 0xFF#8 0x00#8 0x00#8 0x00#8 0x00#8) = .ok ((), launched) := by
  have hmap : mapRam none 0 ⟨0, 65536⟩ 0 none =
      installRange none 0 65536 (some (.bytes 0)) (some (.bytes 0)) :=
    (mapRam_none (n := 65536) rfl none 0).trans (mapRam_some (Nat.le_refl _) none 0)
  exact (congrFun hmap _).trans (installRange_current (by decide))

/-- Zero-filled RAM reads zero everywhere (R76). -/
theorem launched_peek (a : Word) : launched.peek a = some 0x00#8 := by
  have hslot : launched.readSlot a = some (.byte (0 + (a.toNat - 0))) :=
    (State.readSlot_inside a.isLt).trans (Memory.readSlot_install_bytes (m := ⟨[], [], [], 0⟩)
      (r := ⟨0, 0, 65536, some (.bytes 0), some (.bytes 0)⟩) rfl rfl (Nat.zero_le _)
      (by simpa using a.isLt))
  rw [State.peek_of_readSlot hslot]
  rfl

/-- The word at the reset vector of zero-filled RAM is zero (R370). -/
theorem launched_reset : hostOperation (.reset none) launched = .ok ((), launched) := by
  have htarget : resetTarget none launched = .ok (wordOf 0 0, launched) :=
    memReadWord_of_peek (launched_peek _) (launched_peek _)
  exact (resetMachine_of_ok htarget).trans (by rw [State.pinned_of_none rfl]; rfl)

/-- Settles O57: the boot sequence step by step, and the errors of a construction in their order. -/
theorem resetStateIsTheBootedMachine : Obligations.ResetStateIsTheBootedMachine := by
  refine ⟨?_, fun _ _ => ⟨registerOpcode_new, registerOpcode_duplicate⟩,
    fun c pc sp a x y p => ⟨fun h => if_pos h, fun h => ?_, fun h1 h2 => ⟨fun h => ?_, fun h3 => ?_⟩⟩⟩
  · exact ⟨_, _, _, (construct_of_sizes (by decide) (by decide) (by decide) _ _ _ _ _ _).trans
      (if_pos opcodes_nodup_default), launched_mapRam, launched_reset, rfl⟩
  · rw [construct, if_neg (by omega), if_pos h]
  · rw [construct, if_neg (by omega), if_neg (by omega), if_pos h]
  · rw [construct_of_sizes h1 h2 h3]
    exact ⟨fun h => if_neg h, fun h => ⟨_, if_pos h, rfl, rfl, rfl, rfl, rfl, rfl, rfl, rfl, rfl, rfl, rfl,
      rfl, rfl, rfl⟩⟩

end Sys2Proof.Machine
end
